-- ==== Sys2Proof/Word.lean ====
section
/-!
DEFINITION. The words of the FN-420 and the named sets of values the manual uses for them: byte, channel
marks, extended master position (introduction 4.2), and one inductive for every fixed set of names. `Table`
is a run of a fixed number of like entries.
-/
namespace Sys2Proof

/-- One byte of a frame, of a record or of line memory. -/
abbrev Byte := BitVec 8

/-- A set of the 32 trip channels: channel `c` at bit `c` (R173). -/
abbrev Marks := BitVec 32

/-- An extended master position, impression:phase, as one 40-bit value (introduction 4.2). -/
abbrev ExtPos := BitVec 40

/-- One of the 62 slots of a cycle frame, its 8 bytes with byte 0 the most significant (R173). -/
abbrev Slot := BitVec 64

/-- An instant or a duration, in nanoseconds (assumption 2). -/
abbrev Time := Nat

/-- A run of `n` like entries, numbered from 0. -/
structure Table (α : Type) (n : Nat) where
  list : List α
  size : list.length = n
  deriving DecidableEq, Repr

/-- `n` entries that all hold `a`. -/
def Table.replicate {α : Type} (n : Nat) (a : α) : Table α n :=
  ⟨List.replicate n a, List.length_replicate⟩

/-- The two fibre ports. -/
inductive PortId where
  | a
  | b
  deriving DecidableEq, Repr

/-- The rate of a fibre link or of the ring. -/
inductive Rate where
  | full
  | reduced
  deriving DecidableEq, Repr

/-- The four cycle periods (R3). -/
inductive Period where
  | us250
  | us500
  | us1000
  | us2000
  deriving DecidableEq, Repr

/-- The sync state of the cycle unit (R3). -/
inductive SyncState where
  | unsynced
  | synced
  | coasting
  | lost
  deriving DecidableEq, Repr

/-- Where the local cycle number came from (R3). -/
inductive NumberOrigin where
  | real
  | substitute
  deriving DecidableEq, Repr

/-- The ring state (R158). -/
inductive RingState where
  | ring
  | lineA
  | lineB
  | isolated
  deriving DecidableEq, Repr

/-- The election state (R174). -/
inductive ElectionState where
  | passive
  | listening
  | claiming
  | master
  | failed
  deriving DecidableEq, Repr

/-- The link state of a fibre port (R185). -/
inductive LinkState where
  | disabled
  | acquire
  | up
  deriving DecidableEq, Repr

/-- The state of an axis (R22). -/
inductive AxisState where
  | off
  | disabled
  | follow
  | stopping
  | stopped
  deriving DecidableEq, Repr

/-- The kind of an action entry (R88). -/
inductive ActionKind where
  | none
  | syncStop
  | axisStop
  | torqueOff
  deriving DecidableEq, Repr

/-- The operation of a trip term (chapter 4.2). -/
inductive TermOp where
  | load
  | and
  | or
  | xor
  deriving DecidableEq, Repr

/-- The mode of a stream context (R97). -/
inductive StreamMode where
  | off
  | source
  | sink
  deriving DecidableEq, Repr

/-- The byte order of a stream context (R108). -/
inductive ByteOrder where
  | normal
  | swapped
  deriving DecidableEq, Repr

/-- The damaged-line option of a sink (R134). -/
inductive DamagedOption where
  | mark
  | drop
  deriving DecidableEq, Repr

/-- The image port direction (R101). -/
inductive ImageDirection where
  | capture
  | deliver
  deriving DecidableEq, Repr

/-- The tap mode of the image port (R101). -/
inductive TapMode where
  | single
  | interleaved
  | mirrored
  deriving DecidableEq, Repr

/-- The reason in a line header (chapter 6.1). -/
inductive Reason where
  | complete
  | short
  | damaged
  | missing
  deriving DecidableEq, Repr

/-- The status of a mark search (R117). -/
inductive MarkStatus where
  | searching
  | locked
  | lost
  deriving DecidableEq, Repr

/-- The condition of the line a sink is assembling (chapter 8.1). -/
inductive AssemblyCond where
  | assembling
  | damaged
  | dropped
  deriving DecidableEq, Repr

/-- The state of a tile (chapter 9.2). -/
inductive TileState where
  | empty
  | clean
  | dirty
  deriving DecidableEq, Repr

/-- The ten frame kinds (chapter 10.1). -/
inductive FrameKind where
  | cycle
  | trip
  | claim
  | segment
  | tile
  | event
  | refusal
  | correction
  | request
  | answer
  deriving DecidableEq, Repr

/-- The three classes of own frames (chapter 10.1). -/
inductive FrameClass where
  | management
  | console
  | image
  deriving DecidableEq, Repr

/-- The reason of a refusal of an operator event (R150, R151). -/
inductive RefuseReason where
  | full
  | unaddressed
  deriving DecidableEq, Repr

/-- The status of an answer (R173). -/
inductive Status where
  | ok
  | unknown
  | range
  | state
  | denied
  | busy
  | cause
  | malformed
  deriving DecidableEq, Repr

/-- The five commands of an AXIS request (chapter 2.3). -/
inductive AxisCommand where
  | enable
  | engage
  | stop
  | disable
  | release
  deriving DecidableEq, Repr

/-- The eleven request kinds, in the order of their codes (R197). -/
inductive RequestKind where
  | read
  | write
  | readClear
  | tripReset
  | tripCommit
  | axis
  | setSpeed
  | streamRestart
  | retrain
  | ringRestart
  | nodeReset
  deriving DecidableEq, Repr

/-- The twelve items of management, in the order of their codes (chapter 13.2). -/
inductive Item where
  | node
  | axis
  | term
  | programLength
  | activeTerm
  | action
  | stream
  | mark
  | tile
  | port
  | view
  | counters
  deriving DecidableEq, Repr

/-- One mark for each of the five sticky axis flags (R41). -/
structure AxisFlags where
  sat : Bool := false
  clamp : Bool := false
  ferr : Bool := false
  silent : Bool := false
  dfault : Bool := false
  deriving DecidableEq, Repr

end Sys2Proof
end

