-- ==== Sys2Proof/Config.lean ====
section
/-!
DEFINITION. What an implementation of the FN-420 fixes and the manual leaves open, each an opaque constant:
nothing can be proved of its value, so a claim holds whatever it is. (The figures the manual itself fixes
stand in Machine/Ops.lean.)
-/
namespace Sys2Proof

/-- How many bytes the answer to a READ or a READ-CLEAR carries for a given entry. The manual lists what the
data holds (R196) and not its byte layout; an answer carries at most 1,024 data bytes (chapter 13.1). -/
opaque Config.entryLength : {α : Type} → α → Fin 1025

/-- The bytes of that data (R196 gives no layout). -/
opaque Config.entryByte : {α : Type} → α → Nat → Byte

/-- The byte that shows an axis state in tile 253 (R147 gives the order of the fields and no codes). -/
opaque Config.axisStateCode : AxisState → Byte

/-- The byte that shows five flags or five masks in tile 253 (R147 gives no bit places). -/
opaque Config.axisFlagsCode : AxisFlags → Byte

/-- The byte that shows an election state in tile 254 (R147 gives no codes). -/
opaque Config.electionCode : ElectionState → Byte

/-- The byte that shows a link state in tile 254 (R147 gives no codes). -/
opaque Config.linkCode : LinkState → Byte

/-- The byte that shows a context's mode and full mark in tile 255 (R147 gives no codes). -/
opaque Config.streamCode : StreamMode → Bool → Byte

/-- The two bytes that show a mark record's status and miss count in tile 255 (R147 gives no codes). -/
opaque Config.markCode : MarkStatus → Nat → Byte × Byte

/-- Whether CLAMP ends set when ONE accepted WRITE both lowers Cmax below the magnitude of C (which sets CLAMP,
R25) and marks CLAMP in the flag field (which clears it, R41). The manual orders writes, not the two
effects of one write. -/
opaque Config.clampAfterClear : Bool

/-- The answering node in an ANSWER record of a node without an address, by its straps. R195 puts the node's
address there and such a node has none. -/
opaque Config.unaddressedAnswerer : BitVec 6 → Byte

end Sys2Proof
end

