-- ==== Sys2Proof/Syntax.lean ====
section
/-!
DEFINITION. The commands of the FN-420: one constructor of `Instr` for each row of spec/opcode_table.json.
The table gives the rows no bits and no fields; the operands here are what the outside world supplies with
the event: the time since the previous command (`dt`, nanoseconds), the bytes received, a pin level, the
pixels a camera gave. An event that the part's own timers make carries no time: it happens at its timer's
instant. The rows that execute a queued WRITE carry the fields its data names, because the manual gives the
layout of no WRITE data (assumption 5); `none` stands for data too short for the fields it names (R197).
-/
namespace Sys2Proof

/-- Fields of the cycle unit's settings that a WRITE of the NODE item names (R14). -/
structure CycleWrite where
  period : Option Nat := none
  jump : Option Nat := none
  coast : Option Nat := none
  dA : Option Nat := none
  dB : Option Nat := none
  dOut : Option Nat := none
  accel : Option Nat := none
  decel : Option Nat := none
  deriving DecidableEq, Repr

/-- A WRITE of the NODE item: the fields it names, block by block (chapter 13.2). A named set of values is an
`Option`, `none` standing for a code outside the named ones. -/
structure NodeWrite where
  cycle : CycleWrite := {}
  /-- the MASTER_JUMP flag field, `true` when the flag is marked to be cleared (R11) -/
  jumpFlag : Option Bool := none
  /-- the MASTER_JUMP mask, `true` for masked -/
  jumpMask : Option Bool := none
  direction : Option (Option ImageDirection) := none
  tap : Option (Option TapMode) := none
  /-- the shared allowance A (R171) -/
  allowance : Option Nat := none
  /-- the console cap Kc (R171) -/
  consoleCap : Option Nat := none
  priority : Option Nat := none
  /-- the write-permit mask, address `n` at bit `n - 1` (R193) -/
  permit : Option (BitVec 62) := none
  /-- a field that may only be read is named: the strap address (chapter 13.2), or another of those a READ answers, such as the sync
  state, Mloc or the ring state (assumption 82) -/
  readOnly : Bool := false
  deriving DecidableEq, Repr

/-- A WRITE of an AXIS item (R23). -/
structure AxisWrite where
  /-- a field that may only be read is named: state, R, S, Ca, v, P_out, feed-forward, last actual, miss count -/
  readOnly : Bool := false
  group : Option Nat := none
  num : Option Int := none
  den : Option Nat := none
  offset : Option Int := none
  target : Option Int := none
  slew : Option Nat := none
  corr : Option Int := none
  corrMax : Option Nat := none
  corrStep : Option Nat := none
  ferrLimit : Option Nat := none
  decel : Option Nat := none
  /-- the flag field: each flag marked is to be cleared (R41) -/
  clear : Option AxisFlags := none
  /-- the mask, a mark for masked -/
  mask : Option AxisFlags := none
  deriving DecidableEq, Repr

/-- A WRITE of an item without a row of its own: a staging term or the staging length (R64). The item of the
queued request decides which part is read. -/
structure PlainWrite where
  source : Option Nat := none
  negate : Option Bool := none
  op : Option (Option TermOp) := none
  last : Option Bool := none
  /-- `some none` names the mark for absent -/
  target : Option (Option Nat) := none
  length : Option Nat := none
  deriving DecidableEq, Repr

/-- A WRITE of an ACTION item (R88). -/
structure ActionWrite where
  kind : Option (Option ActionKind) := none
  groups : Option (BitVec 4) := none
  pins : Option (BitVec 4) := none
  masterStop : Option Bool := none
  deriving DecidableEq, Repr

/-- A WRITE of a STREAM item (R98). -/
structure StreamWrite where
  mode : Option (Option StreamMode) := none
  base : Option Nat := none
  size : Option Nat := none
  length : Option Nat := none
  pixel : Option Nat := none
  order : Option (Option ByteOrder) := none
  destNode : Option Nat := none
  destCtx : Option Nat := none
  segment : Option Nat := none
  pitch : Option Nat := none
  origin : Option Nat := none
  originNode : Option Nat := none
  originCtx : Option Nat := none
  damaged : Option (Option DamagedOption) := none
  /-- a field that may only be read is named, such as the slot size, the held count or the next line number (assumption 82) -/
  readOnly : Bool := false
  deriving DecidableEq, Repr

/-- A WRITE of a MARK item (R116). -/
structure MarkWrite where
  enable : Option Bool := none
  node : Option Nat := none
  axis : Option Nat := none
  phase : Option Nat := none
  window : Option Nat := none
  first : Option Nat := none
  last : Option Nat := none
  dark : Option Nat := none
  minimum : Option Nat := none
  gain : Option Nat := none
  /-- a field of the search state is named, which may only be read (assumption 82) -/
  readOnly : Bool := false
  deriving DecidableEq, Repr

/-- A WRITE of a TILE item (R146). -/
structure TileWrite where
  permitted : Option Nat := none
  /-- a field other than the permitted writer is named -/
  other : Bool := false
  deriving DecidableEq, Repr

/-- A WRITE of a PORT item (R190). -/
structure PortWrite where
  /-- the enable setting: `some true` for ENABLED, `some false` for DISABLED, `none` for any other value -/
  enable : Option (Option Bool) := none
  /-- a field that may only be read is named, such as the link state, the rate or the attempt number (assumption 82) -/
  readOnly : Bool := false
  deriving DecidableEq, Repr

/-- The commands: one constructor for each row of spec/opcode_table.json, in the table's order. -/
inductive Instr where
  /-- `none`: RESET is held low (R90, R192); some straps: the reset ends with these at the strap pins. -/
  | powerOnReset (dt : Nat) (straps : Option (BitVec 6))
  | nodeResetBegin (straps : BitVec 6)
  | frameArrival (dt : Nat) (port : PortId) (bytes : List Byte)
  | substituteCycle
  | masterCycleEvent
  | outputInstant
  | setpointRecordSent
  | answerWindowClose
  | actualRecord (dt : Nat) (bytes : List Byte)
  | tripInputChange (dt : Nat) (pin : Fin 8) (high : Bool)
  | tripInputHoldExpiry (pin : Fin 8)
  | tripEvaluation (dt : Nat) (pick : Nat)
  | triggerPulse (ctx : Fin 2)
  | lineValidRise (dt : Nat) (input : Fin 2)
  | captureComplete (dt : Nat) (ctx : Fin 2) (tap0 : List (BitVec 16)) (tap1 : List (BitVec 16))
  | captureTimeout (ctx : Fin 2) (tap0 : List (BitVec 16)) (tap1 : List (BitVec 16))
  | deliveryEnd (dt : Nat)
  | consoleRecordIn (dt : Nat) (span : Nat) (bytes : List Byte)
  | recordRouting (dt : Nat)
  | consoleSendStart (dt : Nat)
  | consoleSendEnd (dt : Nat)
  | consoleHoldChange (dt : Nat) (asserted : Bool)
  | portFrameEnd (port : PortId)
  | listenTimerExpiry
  | claimTimerExpiry
  | lockWatchdogExpiry (port : PortId)
  | retryTimerExpiry (port : PortId)
  | wordLockGained (dt : Nat) (port : PortId)
  | identityRecordIn (dt : Nat) (port : PortId) (bytes : List Byte)
  | lockLost (dt : Nat) (port : PortId)
  | read (dt : Nat)
  | readClear (dt : Nat)
  | write (dt : Nat) (fields : Option PlainWrite)
  | nodeSettingsWrite (dt : Nat) (fields : Option NodeWrite)
  | masterJumpClear (dt : Nat) (fields : Option NodeWrite)
  | imagePortSettingWrite (dt : Nat) (fields : Option NodeWrite)
  | allowanceSettingWrite (dt : Nat) (fields : Option NodeWrite)
  | priorityWrite (dt : Nat) (fields : Option NodeWrite)
  | writePermitMaskWrite (dt : Nat) (fields : Option NodeWrite)
  | axisWrite (dt : Nat) (fields : Option AxisWrite)
  | offsetWrite (dt : Nat) (fields : Option AxisWrite)
  | cmaxWrite (dt : Nat) (fields : Option AxisWrite)
  | axisFlagClear (dt : Nat) (fields : Option AxisWrite)
  | axisMaskWrite (dt : Nat) (fields : Option AxisWrite)
  | actionWrite (dt : Nat) (fields : Option ActionWrite)
  | streamWrite (dt : Nat) (fields : Option StreamWrite)
  | streamModeOn (dt : Nat) (fields : Option StreamWrite)
  | streamModeOff (dt : Nat) (fields : Option StreamWrite)
  | markWrite (dt : Nat) (fields : Option MarkWrite)
  | tileWrite (dt : Nat) (fields : Option TileWrite)
  | portEnableWrite (dt : Nat) (fields : Option PortWrite)
  | tripReset (dt : Nat)
  | tripCommit (dt : Nat)
  | enable (dt : Nat)
  | engage (dt : Nat)
  | stop (dt : Nat)
  | disable (dt : Nat)
  | release (dt : Nat)
  | setSpeed (dt : Nat)
  | streamRestart (dt : Nat)
  | retrain (dt : Nat)
  | ringRestart (dt : Nat)
  | nodeReset (dt : Nat)
  | lineValidFall (dt : Nat) (input : Fin 2)
  | unknownRequestKind (dt : Nat)
  deriving DecidableEq, Repr

end Sys2Proof
end

