-- ==== Sys2Proof/Decode.lean ====
section
/-!
DEFINITION. The command a word spells. Every row of spec/opcode_table.json has an empty "fields" list and no bits: no command
of this block is a word (frames, console records and identity records are read byte by byte in Machine/Wire.lean), so no word
spells a command.
-/
namespace Sys2Proof

/-- The command that the `nbits` bits `w` spell by the table's bits: none, since the table gives no row bits. -/
def decodeTableWord (_nbits _w : Nat) : Option Instr := none

end Sys2Proof
end

