-- ==== Sys2Proof/Machine/State.lean ====
section
/-!
DEFINITION. The state of the FN-420, block by block, as plain data, with the values of R3, R22, R63, R97,
R115, R117, R143, R171, R174, R185 and R193 as the defaults of its fields; the reasons a step could stop; and
`State.reset`.
-/
namespace Sys2Proof.Machine

/-- The reasons a step could end in a fault. There are none: every command of the table has an effect that
the spec gives, and the spec stops the part nowhere. -/
inductive Fault
  deriving DecidableEq, Repr

/-- The reasons a step could be refused. -/
inductive Refusal where
  /-- Raised by `exec` alone, for a row of the table that has no meaning yet; safe, since nothing is claimed of
  the row. No arm of `exec` raises it any more. -/
  | notModelled (mnemonic : String)
  deriving DecidableEq, Repr

/-! ### The cycle unit (chapter 1) -/

/-- The counters of the cycle unit (R3). -/
structure CycleCounters where
  earlyCopy : Nat := 0
  lateCopy : Nat := 0
  skew : Nat := 0
  staleCopy : Nat := 0
  substituteCycle : Nat := 0
  roundLost : Nat := 0
  lateReturn : Nat := 0
  alignmentShort : Nat := 0
  masterJump : Nat := 0
  deriving DecidableEq, Repr

/-- The virtual master generator (R3, R15). -/
structure Generator where
  position : ExtPos := 0
  v : Int := 0
  vt : Int := 0
  accel : Nat := 1000
  decel : Nat := 4096
  deriving DecidableEq, Repr

/-- The 62 slots of one slot area, slot `n` at entry `n - 1`. -/
abbrev SlotArea := Table Slot 62

/-- An area of 62 unwritten slots. -/
def SlotArea.empty : SlotArea := Table.replicate 62 0

/-- The cycle unit (R3). -/
structure CycleUnit where
  sync : SyncState := .unsynced
  configuredPeriod : Period := .us500
  workingPeriod : Period := .us500
  number : BitVec 16 := 0
  numberOrigin : NumberOrigin := .substitute
  substitutes : Nat := 0
  lastArrival : Time := 0
  /-- the expected arrival time; at a master the instant of its next cycle event (R20, R21) -/
  expected : Time := 500000
  mloc : ExtPos := 0
  lastStep : Int := 0
  lag : Int := 0
  vlast : Int := 0
  lastTarget : Int := 0
  ringRate : Rate := .reduced
  /-- the working output delay, µs -/
  outDelay : Nat := 0
  /-- the configured output delay D_out, µs -/
  dOut : Nat := 0
  dA : Nat := 0
  dB : Nat := 0
  lastPort : Option PortId := none
  coast : Nat := 1000
  jump : Nat := 65536
  jumpFlag : Bool := false
  jumpMasked : Bool := true
  lastTotal : Marks := 0
  lastArea : SlotArea := SlotArea.empty
  gen : Generator := {}
  /-- the captured slot content with its cycle number (R2) -/
  capture : Option (BitVec 16 × Slot) := none
  /-- the current areas of the returned copies of the round, in order of return (R17) -/
  returned : List SlotArea := []
  /-- the number of the last frame sent in this term as master (R17, R18) -/
  sentNumber : Option (BitVec 16) := none
  /-- the last V and Vt this node sent in a cycle frame (R20) -/
  sentSpeed : Option (Int × Int) := none
  /-- the trip total and the previous-round area of the frame before (R18, R19) -/
  frameTotal : Marks := 0
  frameArea : SlotArea := SlotArea.empty
  counters : CycleCounters := {}
  deriving DecidableEq, Repr

/-! ### The axis unit (chapter 2) -/

/-- An entry of the axis table (R22). -/
structure AxisEntry where
  state : AxisState := .off
  group : Nat := 0
  /-- gear numerator N -/
  num : Int := 1
  /-- gear denominator D -/
  den : Nat := 1
  /-- gear remainder R -/
  rem : Int := 0
  /-- base setpoint S -/
  base : BitVec 32 := 0
  offset : Int := 0
  target : Int := 0
  slew : Nat := 1000
  corr : Int := 0
  /-- Ca, the correction at the last computation -/
  corrUsed : Int := 0
  corrMax : Nat := 0
  corrStep : Nat := 1000
  ferrLimit : Nat := 16777216
  decel : Nat := 1000
  v : Int := 0
  /-- P_out -/
  setpoint : BitVec 32 := 0
  feed : Int := 0
  flags : AxisFlags := {}
  /-- a mark for masked -/
  mask : AxisFlags := { sat := true, clamp := true, ferr := true }
  lastActual : Option (BitVec 32) := none
  miss : Nat := 0
  /-- the stop group in use: a written group is used from the next cycle event (R23, assumption 46) -/
  groupInUse : Nat := 0
  /-- how often the axis has entered OFF (R26, R35, R49, R52, R57); the model's own (assumption 47) -/
  offs : Nat := 0
  /-- how often the axis has been disabled (R57); the model's own (assumption 47) -/
  disables : Nat := 0
  deriving DecidableEq, Repr

/-- The counters of the axis unit (R22, R43, R44). -/
structure AxisCounters where
  taken : Nat := 0
  clamped : Nat := 0
  ignored : Nat := 0
  deriving DecidableEq, Repr

/-- The axis unit. -/
structure AxisUnit where
  entries : Table AxisEntry 16 := Table.replicate 16 {}
  counters : AxisCounters := {}
  deriving DecidableEq, Repr

/-! ### The drive link controller (chapter 3) -/

/-- The values handed over for one axis at a cycle event (R26, R46), and how often it had entered OFF and been disabled then
(R57; assumption 47). -/
structure Handed where
  axis : Nat
  enabled : Bool
  stop : Bool
  setpoint : BitVec 32
  feed : Int
  offs : Nat := 0
  disables : Nat := 0
  deriving DecidableEq, Repr

/-- The pending output instant with the values handed with it (R48). -/
structure PendingPoll where
  instant : Time
  tag : Byte
  values : List Handed
  deriving DecidableEq, Repr

/-- Where the poll of one axis stands: its record is on the line, or its answer window is open (R50). -/
inductive PollPhase where
  | sending (ends : Time)
  | window (closes : Time)
  deriving DecidableEq, Repr

/-- The poll in progress: the values handed over for the axis being polled and for those not yet polled (R46, R49). -/
structure Poll where
  tag : Byte
  current : Handed
  phase : PollPhase
  rest : List Handed
  deriving DecidableEq, Repr

/-- The READY and FAULT marks of a good answer (R53). -/
structure DriveStatus where
  ready : Bool
  fault : Bool
  deriving DecidableEq, Repr

/-- The counters and latched events of the drive link controller (R58). -/
structure DriveCounters where
  badCrc : Nat := 0
  wrongAddress : Nat := 0
  wrongTag : Nat := 0
  noAnswer : Nat := 0
  abandoned : Nat := 0
  strayAnswer : Nat := 0
  instantReplaced : Nat := 0
  notReady : Nat := 0
  driveFault : Nat := 0
  followingError : Nat := 0
  pollOverrun : Bool := false
  driveSilent : Bool := false
  deriving DecidableEq, Repr

/-- The drive link controller. -/
structure DriveLink where
  next : Option PendingPoll := none
  poll : Option Poll := none
  status : Table (Option DriveStatus) 16 := Table.replicate 16 none
  counters : DriveCounters := {}
  deriving DecidableEq, Repr

/-! ### The trip unit (chapters 4 and 5) -/

/-- A term of a trip program, with the values of R63. -/
structure Term where
  source : Nat := 0
  negate : Bool := false
  op : TermOp := .load
  last : Bool := false
  target : Option Nat := none
  deriving DecidableEq, Repr

/-- A trip program: 128 terms and the used length (R62). -/
structure Program where
  length : Nat := 0
  terms : Table Term 128 := Table.replicate 128 {}
  deriving DecidableEq, Repr

/-- A source change handed to the trip unit: the sources that changed and the values they take (R59, R61). -/
structure SourceChange where
  mask : BitVec 64
  value : BitVec 64
  deriving DecidableEq, Repr

/-- An entry of the action table (R88). -/
structure Action where
  kind : ActionKind := .none
  groups : BitVec 4 := 0
  pins : BitVec 4 := 0
  masterStop : Bool := false
  deriving DecidableEq, Repr

/-- The counters of the trip unit (R79, R95). -/
structure TripCounters where
  glitch : Nat := 0
  tripFrame : Nat := 0
  commit : Nat := 0
  commitRefused : Nat := 0
  tripReset : Nat := 0
  frameAccepted : Nat := 0
  duplicate : Nat := 0
  badOrigin : Nat := 0
  heldConfirmed : Nat := 0
  unconfirmed : Nat := 0
  groupAction : Nat := 0
  deriving DecidableEq, Repr

/-- The trip unit. -/
structure TripUnit where
  /-- the source set, source `k` at bit `k` -/
  sources : BitVec 64 := 0x0C000000
  /-- source changes handed and not yet taken, oldest first (R67) -/
  changes : List SourceChange := []
  /-- the levels at TI0 to TI7, a mark for high (the low level is active, R60) -/
  pins : BitVec 8 := 0xFF
  /-- the filtered levels, a mark for active -/
  filtered : BitVec 8 := 0
  /-- the hold timer of each pin: its expiry while it runs -/
  hold : Table (Option Time) 8 := Table.replicate 8 none
  staging : Program := {}
  active : Program := {}
  own : Marks := 0
  /-- the held bits: absent, or present with an age -/
  held : Table (Option Nat) 32 := Table.replicate 32 none
  total : Marks := 0
  upstream : Marks := 0
  blank : Table Nat 32 := Table.replicate 32 0
  /-- the dedupe table, the entry of address `n` at `n - 1` -/
  dedupe : Table (Option Byte) 62 := Table.replicate 62 none
  seq : Byte := 0
  view : Marks := 0
  actions : Table Action 32 := Table.replicate 32 {}
  /-- the trip outputs TO0 to TO3, a mark for asserted (low) -/
  outputs : BitVec 4 := 0
  counters : TripCounters := {}
  deriving DecidableEq, Repr

/-! ### The image unit (chapters 6 and 8) -/

/-- Line memory: the bytes that do not read 0, addresses rising. -/
abbrev Memory := List Host.Cell

/-- A trigger scheduled and not yet pulsed (R104). -/
structure Trigger where
  point : ExtPos
  instant : Time
  deriving DecidableEq, Repr

/-- A capture in progress (R105): the number and tag of its line, the instant of its capture limit (R110),
and whether line-valid has risen for it (R106). -/
structure Capture where
  line : BitVec 16
  tag : ExtPos
  limit : Time
  intake : Bool
  deriving DecidableEq, Repr

/-- The line a sink is rebuilding (chapter 8.1). -/
structure Assembly where
  line : BitVec 16
  next : Nat
  bytes : Nat
  tag : ExtPos
  cond : AssemblyCond
  deriving DecidableEq, Repr

/-- The counters of a stream context (R114, R139). -/
structure StreamCounters where
  triggerOverrun : Nat := 0
  triggerLate : Nat := 0
  captureOverrun : Nat := 0
  triggerBusy : Nat := 0
  unrequestedLine : Nat := 0
  longLine : Nat := 0
  linesCaptured : Nat := 0
  captureTimeout : Nat := 0
  segmentsSent : Nat := 0
  foreignSegment : Nat := 0
  segmentsReceived : Nat := 0
  unstartedSegment : Nat := 0
  staleSegment : Nat := 0
  sinkOverrun : Nat := 0
  damagedLine : Nat := 0
  lineShort : Nat := 0
  linesReceived : Nat := 0
  missingLine : Nat := 0
  damagedDropped : Nat := 0
  linesDelivered : Nat := 0
  deliveryAborted : Nat := 0
  deriving DecidableEq, Repr

/-- The record of a stream context (R97). -/
structure StreamRecord where
  mode : StreamMode := .off
  base : Nat := 0
  size : Nat := 0
  length : Nat := 16
  pixel : Nat := 1
  order : ByteOrder := .normal
  destNode : Nat := 63
  destCtx : Nat := 0
  segment : Nat := 1024
  pitch : Nat := 1048576
  origin : Nat := 0
  originNode : Nat := 63
  originCtx : Nat := 0
  damaged : DamagedOption := .mark
  deriving DecidableEq, Repr

/-- What a context holds besides its record, with the values of a restart (R102, R127). -/
structure StreamWork where
  write : Nat := 0
  read : Nat := 0
  held : Nat := 0
  nextLine : BitVec 16 := 0
  expectedLine : Option (BitVec 16) := none
  capture : Option Capture := none
  triggers : List Trigger := []
  /-- how many segments of the oldest held line have been handed to a port (R111) -/
  segmentsDone : Nat := 0
  assembly : Option Assembly := none
  deriving DecidableEq, Repr

/-- A stream context. -/
structure StreamContext where
  record : StreamRecord := {}
  work : StreamWork := {}
  counters : StreamCounters := {}
  deriving DecidableEq, Repr

/-- The delivery in progress: its context, the instant at which its first word comes onto the lines and line-valid is asserted, and the
earliest instant at which its last word can have been taken (R135). -/
structure Delivery where
  ctx : Nat
  begins : Time
  earliest : Time
  deriving DecidableEq, Repr

/-- The image unit. -/
structure ImageUnit where
  memory : Memory := []
  contexts : Table StreamContext 8 := Table.replicate 8 {}
  direction : ImageDirection := .capture
  tap : TapMode := .single
  /-- the levels that the outside drives onto LV0 and LV1, a mark for high; in DELIVER the part drives LV0 (`State.lineOut`) -/
  lineValid : BitVec 2 := 0
  /-- the trigger outputs TRG0 and TRG1: the instant of the last pulse to the camera (R105, assumption 48) -/
  trigger : Table (Option Time) 2 := Table.replicate 2 none
  delivery : Option Delivery := none
  /-- the instant at which line-valid was, or will be, released after the last delivery that is over (R135, R137) -/
  released : Option Time := none
  lastServed : Nat := 7
  deriving DecidableEq, Repr

/-! ### The mark search unit (chapter 7) -/

/-- A mark record (R115). -/
structure MarkRecord where
  enable : Bool := false
  node : Nat := 63
  axis : Nat := 0
  phase : Nat := 0
  window : Nat := 4096
  first : Nat := 0
  last : Nat := 0
  dark : Nat := 0
  minimum : Nat := 1
  gain : Nat := 0
  deriving DecidableEq, Repr

/-- The search state beside a mark record (R117). -/
structure MarkSearch where
  pending : Bool := false
  found : Bool := false
  miss : Nat := 0
  status : MarkStatus := .searching
  lastError : Option Int := none
  lastCorrection : Option Int := none
  lastDark : Option Nat := none
  deriving DecidableEq, Repr

/-- The counters and the latched event of a mark record (R126). -/
structure MarkCounters where
  linesSearched : Nat := 0
  marksFound : Nat := 0
  correctionsSent : Nat := 0
  windowMiss : Nat := 0
  markLost : Bool := false
  deriving DecidableEq, Repr

/-- A mark record with its search state and counters. -/
structure MarkEntry where
  record : MarkRecord := {}
  search : MarkSearch := {}
  counters : MarkCounters := {}
  deriving DecidableEq, Repr

/-- The mark search unit. -/
structure MarkUnit where
  entries : Table MarkEntry 2 := Table.replicate 2 {}
  deriving DecidableEq, Repr

/-! ### The console unit (chapter 9), its tables -/

/-- What tile 253 shows of one axis (R147). -/
structure AxisShown where
  state : AxisState
  flags : AxisFlags
  mask : AxisFlags
  deriving DecidableEq, Repr

/-- What tile 254 shows (R147). -/
structure RingShown where
  sync : SyncState
  ringRate : Rate
  ring : RingState
  election : ElectionState
  linkA : LinkState
  rateA : Rate
  linkB : LinkState
  rateB : Rate
  deriving DecidableEq, Repr

/-- What tile 255 shows (R147): mode and full mark of each context, status and miss count of each record. -/
structure StreamsShown where
  contexts : List (StreamMode × Bool)
  marks : List (MarkStatus × Nat)
  deriving DecidableEq, Repr

/-- The content of a tile: the bytes a console wrote, or what a system tile shows (R147). -/
inductive TileContent where
  | bytes (data : List Byte)
  | trips (view : Marks) (own : Marks)
  | axes (shown : List AxisShown)
  | ring (shown : RingShown)
  | streams (shown : StreamsShown)
  deriving DecidableEq, Repr

/-- An entry of the tile table (chapter 9.2), as R143 leaves an ordinary tile. -/
structure Tile where
  state : TileState := .empty
  permitted : Nat := 0
  lastWriter : Nat := 63
  version : Option (BitVec 16) := none
  content : TileContent := .bytes []
  deriving DecidableEq, Repr

/-- The counters of the console unit (R155). -/
structure ConsoleCounters where
  badRecord : Nat := 0
  outboundOverflow : Nat := 0
  unroutableRecord : Nat := 0
  tileAccepted : Nat := 0
  tileRefused : Nat := 0
  tileStale : Nat := 0
  tileReturned : Nat := 0
  eventsReceived : Nat := 0
  eventRefusedFull : Nat := 0
  badEvent : Nat := 0
  eventRefusedUnaddressed : Nat := 0
  refusalsReceived : Nat := 0
  refusalReturned : Nat := 0
  replyLost : Nat := 0
  deriving DecidableEq, Repr

/-! ### The forwarding unit, the election unit, the port units and the agent: settings and counters -/

/-- The node-wide counters of the forwarding unit (R172). -/
structure ForwardCounters where
  malformed : Nat := 0
  hopExpired : Nat := 0
  returned : Nat := 0
  managementOverflow : Nat := 0
  consoleOverflow : Nat := 0
  imageOverflow : Nat := 0
  horizonHold : Nat := 0
  deriving DecidableEq, Repr

/-- The counters the forwarding unit keeps per port (R172). -/
structure QueueCounters where
  tripDropped : Nat := 0
  cycleDropped : Nat := 0
  transitDropped : Nat := 0
  portFlushed : Nat := 0
  deriving DecidableEq, Repr

/-- The counters and the latched event of the election unit (R184). -/
structure ElectionCounters where
  claimsPlaced : Nat := 0
  conflictClaimsPlaced : Nat := 0
  claimsForwarded : Nat := 0
  claimsDropped : Nat := 0
  badClaim : Nat := 0
  ownClaimDiscarded : Nat := 0
  electionsWon : Nat := 0
  masterConflict : Nat := 0
  electionFailed : Bool := false
  deriving DecidableEq, Repr

/-- The election unit (R174). -/
structure ElectionUnit where
  state : ElectionState := .passive
  priority : Nat := 0
  attempts : Nat := 0
  /-- the expiry of the claim timer while it runs -/
  claimTimer : Option Time := none
  /-- the expiry of the listen timer while it runs -/
  listenTimer : Option Time := none
  /-- the value the listen timer was last started with (R176) -/
  listenValue : Time := 0
  quiet : Bool := false
  conflictPlaced : Bool := false
  counters : ElectionCounters := {}
  deriving DecidableEq, Repr

/-- The counters and latched events of a port unit (R191). -/
structure PortCounters where
  attemptFailed : Nat := 0
  linkUp : Nat := 0
  crcError : Nat := 0
  downgraded : Bool := false
  neverUp : Bool := false
  qualityDrop : Bool := false
  lockLost : Bool := false
  deriving DecidableEq, Repr

/-- The state of the link a port unit keeps (R185). -/
structure Link where
  state : LinkState := .acquire
  enabled : Bool := true
  rate : Rate := .full
  attempt : Nat := 1
  beenUp : Bool := false
  /-- the expiry of the lock watchdog while it runs -/
  watchdog : Option Time := some 2000000
  /-- the expiry of the retry timer while it runs -/
  retry : Option Time := none
  /-- the instant at which the port began to send its identity record (R187): every 10 µs since the attempt gained word lock, and once
  more on entering UP; none while it has no word lock -/
  identity : Option Time := none
  frames : Nat := 0
  errors : Nat := 0
  /-- the neighbour identity: its address byte and its port letter byte -/
  neighbour : Option (Byte × Byte) := none
  counters : PortCounters := {}
  deriving DecidableEq, Repr

/-- The counters of the management agent (R196). -/
structure AgentCounters where
  requestsTaken : Nat := 0
  busy : Nat := 0
  denied : Nat := 0
  unknown : Nat := 0
  badOrigin : Nat := 0
  requestReturned : Nat := 0
  deriving DecidableEq, Repr

/-! ### What a READ returns (R196) -/

/-- The queue lengths a READ of the NODE item returns: bytes in the transit FIFOs, frames elsewhere (R171),
records of the console queues (R155). -/
structure QueueLevels where
  tripA : Nat
  tripB : Nat
  cycleA : Nat
  cycleB : Nat
  transitA : Nat
  transitB : Nat
  management : Nat
  console : Nat
  image : Nat
  outbound : Nat
  inbound : Nat
  replies : Nat
  deriving DecidableEq, Repr

/-- The NODE entry: what R3, R14, R101, R114, R139, R155, R171, R184, R192 and R194 say a READ returns. -/
structure NodeEntry where
  cycle : CycleUnit
  direction : ImageDirection
  tap : TapMode
  lastServed : Nat
  allowance : Nat
  consoleCap : Nat
  allowanceEff : Nat
  managementUsed : Nat
  consoleUsed : Nat
  sharedUsed : Nat
  ring : RingState
  ownSend : Option PortId
  queues : QueueLevels
  holdOut : Bool
  holdIn : Bool
  election : ElectionState
  priority : Nat
  attempts : Nat
  quiet : Bool
  claimRemaining : Option Time
  listenRemaining : Option Time
  permit : BitVec 62
  straps : BitVec 6
  deriving DecidableEq, Repr

/-- The VIEW entry (R74, R96). -/
structure ViewEntry where
  own : Marks
  sources : BitVec 64
  filtered : BitVec 8
  blank : Table Nat 32
  seq : Byte
  view : Marks
  held : Table (Option Nat) 32
  total : Marks
  upstream : Marks
  dedupe : Table (Option Byte) 62
  outputs : BitVec 4
  strongest : List ActionKind
  deriving DecidableEq, Repr

/-- The STREAM entry (R114, R139). -/
structure StreamEntry where
  record : StreamRecord
  slotSize : Nat
  capacity : Nat
  write : Nat
  read : Nat
  held : Nat
  nextLine : BitVec 16
  capturing : Bool
  scheduled : Nat
  expectedLine : Option (BitVec 16)
  assembly : Option Assembly
  delivering : Bool
  deriving DecidableEq, Repr

/-- The PORT entry (R191). -/
structure PortEntry where
  state : LinkState
  enabled : Bool
  rate : Rate
  attempt : Nat
  beenUp : Bool
  frames : Nat
  errors : Nat
  timer : Option Time
  neighbour : Option (Byte × Byte)
  deriving DecidableEq, Repr

/-- The counters and latched events of one block (R196). -/
inductive BlockCounters where
  | cycle (c : CycleCounters)
  | axis (c : AxisCounters)
  | drive (c : DriveCounters)
  | trip (c : TripCounters)
  | image (c : List StreamCounters)
  | mark (c : List MarkCounters)
  | console (c : ConsoleCounters)
  | forward (c : ForwardCounters) (a : QueueCounters) (b : QueueCounters)
  | election (c : ElectionCounters)
  | port (c : PortCounters)
  | agent (c : AgentCounters)
  deriving DecidableEq, Repr

/-- What the data of an OK answer to a READ or a READ-CLEAR holds (R195, R196). -/
inductive EntryValue where
  | node (e : NodeEntry)
  | axis (e : AxisEntry) (status : Option DriveStatus)
  | term (t : Term)
  | programLength (n : Nat)
  | activeTerm (t : Term) (n : Nat)
  | action (a : Action)
  | stream (e : StreamEntry)
  | mark (r : MarkRecord) (m : MarkSearch)
  | tile (t : Tile)
  | port (e : PortEntry)
  | view (e : ViewEntry)
  | counters (c : BlockCounters)
  deriving DecidableEq, Repr

/-- The data of an answer: bytes whose layout R173 gives, or an entry whose layout no rule gives. -/
inductive AnswerData where
  | bytes (data : List Byte)
  | entry (e : EntryValue)
  deriving DecidableEq, Repr

/-! ### Frames, records, queues and ports (chapters 9, 10, 12, 13) -/

/-- The payload of a frame: its bytes, or the answer of this node to a READ, whose data has no layout. -/
inductive Payload where
  | bytes (data : List Byte)
  | answer (tag : BitVec 16) (status : Status) (e : EntryValue)
  deriving DecidableEq, Repr

/-- A frame on the fibre (chapter 10.1). Its payload length, header check and CRC-32 follow from these. -/
structure Frame where
  kind : FrameKind
  dest : Byte
  origin : Byte
  hop : Byte
  payload : Payload
  deriving DecidableEq, Repr

/-- The block a frame in a class queue belongs to, which is told when the frame starts (R166). -/
inductive Owner where
  | election
  | correction
  /-- the console unit's tile or event frame (R142) -/
  | consoleFrame
  /-- the console unit's request frame (R142) -/
  | consoleRequest
  | refusal
  | segment (ctx : Nat)
  /-- the agent's answer; `closing` for the answer to an executed NODE RESET (R198) -/
  | answer (closing : Bool)
  | busyAnswer
  deriving DecidableEq, Repr

/-- A frame waiting in a class queue. -/
structure ClassEntry where
  frame : Frame
  owner : Owner
  deriving DecidableEq, Repr

/-- The frame a port is sending: when it ends, whether it came from the transit FIFO (R164), and whether it
is the answer to an executed NODE RESET (R198). -/
structure Sending where
  frame : Frame
  ends : Time
  transit : Bool
  closing : Bool
  deriving DecidableEq, Repr

/-- A fibre port: its link and the queues of its transmitter (R164, R185). -/
structure FibrePort where
  link : Link := {}
  trips : List Frame := []
  cycles : List Frame := []
  transit : List Frame := []
  sending : Option Sending := none
  counters : QueueCounters := {}
  deriving DecidableEq, Repr

/-- The forwarding unit (R158, R165, R168, R169, R171). -/
structure ForwardUnit where
  ring : RingState := .isolated
  management : List ClassEntry := []
  console : List ClassEntry := []
  image : List ClassEntry := []
  allowance : Nat := 16384
  consoleCap : Nat := 4096
  allowanceEff : Nat := 16384
  /-- the console cap of the current interval: a written Kc acts from the next cycle event (R171) -/
  consoleCapEff : Nat := 4096
  managementUsed : Nat := 0
  consoleUsed : Nat := 0
  sharedUsed : Nat := 0
  horizon : Time := 498000
  /-- the horizon hold counter has been incremented in this cycle interval (R169) -/
  horizonHeld : Bool := false
  /-- how often accounts and horizon have been renewed, a cause of a choice (R166); the model's own (assumption 60) -/
  renewals : Nat := 0
  counters : ForwardCounters := {}
  deriving DecidableEq, Repr

/-- A record from the console (chapter 9.1). -/
inductive InRecord where
  | tile (dest : Byte) (tile : Byte) (version : BitVec 16) (content : List Byte)
  | event (dest : Byte) (code : BitVec 16) (data : List Byte)
  | request (tag : BitVec 16) (dest : Byte) (kind : Byte) (item : Byte) (index : Byte) (data : List Byte)
  deriving DecidableEq, Repr

/-- An operator event (R150). -/
structure OperatorEvent where
  origin : Byte
  code : BitVec 16
  data : List Byte
  deriving DecidableEq, Repr

/-- A record of the reply queue (R153). -/
inductive Reply where
  | refused (dest : Byte) (code : BitVec 16) (reason : RefuseReason)
  /-- an answer record whose status byte came from an answer frame or from this node's agent; `closing` for
  the answer to an executed NODE RESET (R198) -/
  | answer (tag : BitVec 16) (node : Byte) (status : Byte) (data : AnswerData) (closing : Bool)
  deriving DecidableEq, Repr

/-- A record to the console (chapter 9.1). -/
inductive OutRecord where
  | tile (tile : Nat) (lastWriter : Nat) (version : Option (BitVec 16)) (content : TileContent)
  | event (e : OperatorEvent)
  | reply (r : Reply)
  deriving DecidableEq, Repr

/-- The console unit (chapter 9). -/
structure ConsoleUnit where
  tiles : Table Tile 256 := Table.replicate 256 {}
  /-- the system part and the ordinary part of the delivery queue (R148) -/
  systemQueue : List Nat := []
  ordinaryQueue : List Nat := []
  inbound : List OperatorEvent := []
  outbound : List InRecord := []
  replies : List Reply := []
  sending : Option OutRecord := none
  /-- the console's hold line: it is asserted (R149) -/
  holdIn : Bool := false
  counters : ConsoleCounters := {}
  deriving DecidableEq, Repr

/-- A request in the agent's queue (chapter 13.1). -/
structure Request where
  /-- it came from the node's own console (R141) -/
  loc : Bool
  origin : Byte
  tag : BitVec 16
  kind : Byte
  item : Byte
  index : Byte
  data : List Byte
  deriving DecidableEq, Repr

/-- An executed NODE RESET waiting to begin (R198): the end of its 10 ms, and the instant at which its answer
had been sent whole. -/
structure ResetWait where
  deadline : Time
  sent : Option Time
  deriving DecidableEq, Repr

/-- The management agent (R193). -/
structure Agent where
  queue : List Request := []
  /-- the write-permit mask, address `n` at bit `n - 1` -/
  permit : BitVec 62 := 0x3FFFFFFFFFFFFFFF
  resetWait : Option ResetWait := none
  counters : AgentCounters := {}
  deriving DecidableEq, Repr

/-- The FN-420: the clock, the address read from the straps, the twelve blocks, and the commands that wait. -/
structure State where
  /-- the present instant -/
  now : Time := 0
  /-- the instant at which the last reset ended (R140) -/
  resetEnd : Time := 0
  /-- the address read from the straps at the end of the last reset (R192) -/
  straps : BitVec 6 := 0
  /-- the RESET pin is held (R90): the part is in reset, and nothing in it happens until the reset ends (assumption 6) -/
  resetHeld : Bool := false
  cycle : CycleUnit := {}
  axis : AxisUnit := {}
  drive : DriveLink := {}
  trip : TripUnit := {}
  image : ImageUnit := {}
  mark : MarkUnit := {}
  console : ConsoleUnit := {}
  forward : ForwardUnit := {}
  election : ElectionUnit := {}
  portA : FibrePort := {}
  portB : FibrePort := {}
  agent : Agent := {}
  /-- the commands that wait, first in, first out -/
  pending : List Instr := []
  deriving DecidableEq, Repr

/-! ### Reset -/

/-- The system tiles as a reset writes them (R143, R147): version 1, DIRTY, permitted writer 63. -/
def resetTile (writer : Nat) (content : TileContent) : Tile :=
  { state := .dirty, permitted := 63, lastWriter := writer, version := some 1, content := content }

/-- What the system tiles show of a node right after a reset: nothing in view, 16 axes OFF, UNSYNCED,
REDUCED, ISOLATED, PASSIVE, both ports in ACQUIRE at FULL, 8 contexts OFF and two searches SEARCHING. -/
def resetTiles (writer : Nat) : Table Tile 256 :=
  ⟨List.replicate 252 ({} : Tile) ++
    [resetTile writer (.trips 0 0),
     resetTile writer (.axes (List.replicate 16 ⟨.off, {}, { sat := true, clamp := true, ferr := true }⟩)),
     resetTile writer (.ring ⟨.unsynced, .reduced, .isolated, .passive, .acquire, .full, .acquire, .full⟩),
     resetTile writer (.streams ⟨List.replicate 8 (.off, false), List.replicate 2 (.searching, 0)⟩)],
   by rw [List.length_append, List.length_replicate]; rfl⟩

/-- The hold timers right after a reset: a pin held low starts its timer at once (R60). -/
def resetHold (now : Time) (pins : BitVec 8) : Table (Option Time) 8 :=
  ⟨(List.range 8).map (fun i => if pins.getLsbD i then none else some (now + 20000)), by simp⟩

/-- The part right after a power-on reset or a NODE RESET that ends at `now` with `straps` at NA0 to NA5
(R192, R198): every field at its reset value. The levels the outside world holds at the pins (trip inputs,
line-valid, the console's hold line) and the commands that wait stay as they are. -/
def State.afterReset (now : Time) (straps : BitVec 6) (pins : BitVec 8) (lineValid : BitVec 2) (holdIn : Bool)
    (pending : List Instr) : State :=
  { now := now
    resetEnd := now
    straps := straps
    cycle := { lastArrival := now, expected := now + 500000 }
    trip := { pins := pins, hold := resetHold now pins }
    image := { lineValid := lineValid }
    console := {
      tiles := resetTiles (if straps = 0 then 63 else straps.toNat)
      systemQueue := [252, 253, 254, 255]
      holdIn := holdIn }
    forward := { horizon := now + 498000 }
    portA := { link := { watchdog := some (now + 2000000) } }
    portB := { link := { watchdog := some (now + 2000000) } }
    pending := pending }

/-- The part while RESET is held, at the instant `now` (R90): every field at its reset value, and the address as last read. Its
timers and the reset's end are those of `State.afterReset` at the end of the reset. -/
def State.inReset (s : State) (now : Time) : State :=
  { State.afterReset now s.straps s.trip.pins s.image.lineValid s.console.holdIn s.pending with resetHeld := true }

/-- The machine right after power-on reset, at instant 0, with the straps all low (DESIGN CHOICE, assumption 3), the
trip inputs high, line-valid low, the console not holding (DESIGN CHOICE, assumption 4), and no command waiting. -/
def State.reset : State := State.afterReset 0 0 0xFF 0 false []

end Sys2Proof.Machine
end

