-- ==== Sys2Proof/Machine/Ops.lean ====
section
/-!
DEFINITION. The shared operations: table entries, sets of marks, saturating counters, bounded steps, the figures the
manual fixes, the node address, line memory, and the update of one block of the state.
-/
namespace Sys2Proof

/-! ### Tables -/

/-- The entry `i`, if the table has one. -/
def Table.get? {α : Type} {n : Nat} (t : Table α n) (i : Nat) : Option α := t.list[i]?

/-- The entry `i`, or `d` beyond the table. -/
def Table.getD {α : Type} {n : Nat} (t : Table α n) (i : Nat) (d : α) : α := t.list.getD i d

/-- The table with entry `i` replaced; nothing changes beyond the table. -/
def Table.set {α : Type} {n : Nat} (t : Table α n) (i : Nat) (a : α) : Table α n :=
  ⟨t.list.set i a, by rw [List.length_set]; exact t.size⟩

/-- The table with entry `i` changed by `f`; nothing changes beyond the table. -/
def Table.modify {α : Type} {n : Nat} (t : Table α n) (i : Nat) (f : α → α) : Table α n :=
  match t.get? i with
  | some a => t.set i (f a)
  | none => t

/-- The table with every entry changed by `f`. -/
def Table.map {α β : Type} {n : Nat} (f : α → β) (t : Table α n) : Table β n :=
  ⟨t.list.map f, by rw [List.length_map]; exact t.size⟩

/-- The table with every entry changed by `f`, which is given the entry's number. -/
def Table.mapIdx {α β : Type} {n : Nat} (f : Nat → α → β) (t : Table α n) : Table β n :=
  ⟨t.list.mapIdx f, by rw [List.length_mapIdx]; exact t.size⟩

/-- The table whose entry `i` is `f i`. -/
def Table.ofFn {α : Type} (n : Nat) (f : Nat → α) : Table α n :=
  ⟨(List.range n).map f, by rw [List.length_map, List.length_range]⟩

/-! ### Sets of marks -/

/-- The marks `0` to `k - 1` for which `p` holds. -/
def marksBelow (n : Nat) (p : Nat → Bool) : Nat → BitVec n
  | 0 => 0
  | k + 1 => if p k then marksBelow n p k ||| BitVec.twoPow n k else marksBelow n p k

/-- The set of the marks for which `p` holds. -/
def marksWhere (n : Nat) (p : Nat → Bool) : BitVec n := marksBelow n p n

/-- How many of the numbers below `n` satisfy `p`. -/
def countBelow (n : Nat) (p : Nat → Bool) : Nat := ((List.range n).filter p).length

/-! ### Numbers -/

/-- A counter after `k` further events: it stays at 4,294,967,295 (introduction 4.4). -/
def bumpBy (c k : Nat) : Nat := min (c + k) 4294967295

/-- A counter after one further event. -/
def bump (c : Nat) : Nat := bumpBy c 1

/-- `x` is newer than `y` (introduction 4.3). -/
def newer {w : Nat} (x y : BitVec w) : Bool :=
  0 < (x - y).toNat && (x - y).toNat < 2 ^ (w - 1)

/-- `x` brought into the range `lo` to `hi`. -/
def clamp (lo hi x : Int) : Int := max lo (min hi x)

/-- `x` clamped to `-m` to `+m`. -/
def clampMag (m : Nat) (x : Int) : Int := clamp (-(m : Int)) m x

/-- One bounded step from `x` toward `goal`, by at most `rate` (R15, R29). -/
def approach (x goal : Int) (rate : Nat) : Int :=
  if (goal - x).natAbs ≤ rate then goal else if x < goal then x + rate else x - rate

/-- `v` brought toward 0 by `d` (R8, R31). -/
def slowDown (v : Int) (d : Nat) : Int := approach v 0 d

/-- The signed difference from `x` to `y`, modulo 2^40 (introduction 4.2). -/
def extDiff (x y : ExtPos) : Int := (y - x).toInt

/-- The phase of an extended position. -/
def extPhase (x : ExtPos) : Nat := x.toNat % 16777216

/-- A number as a 32-bit wrapping axis count. -/
def wrap32 (x : Int) : BitVec 32 := BitVec.ofInt 32 x

/-! ### Periods, rates and the figures the manual fixes -/

/-- A cycle period in µs. -/
def Period.us : Period → Nat
  | .us250 => 250
  | .us500 => 500
  | .us1000 => 1000
  | .us2000 => 2000

/-- A cycle period in ns. -/
def Period.time (p : Period) : Time := p.us * 1000

/-- The arrival tolerance: one eighth of the working period (R6). -/
def Period.tolerance (p : Period) : Time := p.time / 8

/-- The period of so many µs, if it is one of the four (R14). -/
def Period.ofMicros (us : Nat) : Option Period :=
  if us = 250 then some .us250 else if us = 500 then some .us500
  else if us = 1000 then some .us1000 else if us = 2000 then some .us2000 else none

/-- The time one byte takes on a fibre link (chapter 10.1). -/
def Rate.byteTime : Rate → Time
  | .full => 4
  | .reduced => 8

/-- Half the bytes a ring rate carries in a period (R168): 125 or 62.5 bytes per µs. -/
def Rate.halfBytes (r : Rate) (p : Period) : Nat :=
  match r with
  | .full => 125 * p.us
  | .reduced => 125 * p.us / 2

/-- The bytes of line memory (chapter 6.1): 256 blocks of 1,024. -/
def memoryBytes : Nat := 262144

/-! ### Line memory -/

/-- The byte at an address: an address that is not listed reads 0, as every byte does after a reset (R97). -/
def Machine.Memory.read (m : Machine.Memory) (a : Nat) : Byte :=
  match m.find? (fun c => c.1 == a) with
  | some c => c.2
  | none => 0

/-- The cells of `data` stored from address `a` on: those that do not read 0 and lie in line memory. -/
def Machine.Memory.cells (a : Nat) : List Byte → Machine.Memory
  | [] => []
  | b :: rest =>
    if b = 0 || memoryBytes ≤ a then Machine.Memory.cells (a + 1) rest
    else (a, b) :: Machine.Memory.cells (a + 1) rest

/-- Line memory after `data` is stored from address `a` on. -/
def Machine.Memory.write (m : Machine.Memory) (a : Nat) (data : List Byte) : Machine.Memory :=
  m.filter (fun c => c.1 < a) ++ Machine.Memory.cells a data ++ m.filter (fun c => a + data.length ≤ c.1)

/-- `n` bytes from address `a` on. -/
def Machine.Memory.bytes (m : Machine.Memory) (a n : Nat) : List Byte :=
  (List.range n).map (fun i => m.read (a + i))

/-- The canonical form: addresses strictly rising, inside line memory, and no entry that reads 0. -/
abbrev Machine.Memory.wf (m : Machine.Memory) : Prop :=
  m.Pairwise (fun c d => c.1 < d.1) ∧ ∀ c ∈ m, c.2 ≠ 0 ∧ c.1 < memoryBytes

namespace Machine

/-! ### The node and its blocks -/

/-- The node has an address: its straps read 1 to 62 (R192). -/
def State.hasAddress (s : State) : Bool := s.straps != 0 && s.straps != 63

/-- The straps as read, as a number. -/
def State.address (s : State) : Nat := s.straps.toNat

/-- The straps as read, as a byte. -/
def State.addressByte (s : State) : Byte := s.straps.setWidth 8

/-- The last writer a node writes into its system tiles, and the origin it gives its console (R141, R143): its
address, 63 without one. -/
def State.writer (s : State) : Nat := if s.hasAddress then s.address else 63

/-- The clock `dt` later. -/
def State.elapse (s : State) (dt : Nat) : State := { s with now := s.now + dt }

/-- The clock at the instant `t`, or as it is if `t` has passed. -/
def State.reach (s : State) (t : Time) : State := { s with now := max s.now t }

def State.setCycle (s : State) (x : CycleUnit) : State := { s with cycle := x }
def State.setAxis (s : State) (x : AxisUnit) : State := { s with axis := x }
def State.setDrive (s : State) (x : DriveLink) : State := { s with drive := x }
def State.setTrip (s : State) (x : TripUnit) : State := { s with trip := x }
def State.setImage (s : State) (x : ImageUnit) : State := { s with image := x }
def State.setMark (s : State) (x : MarkUnit) : State := { s with mark := x }
def State.setConsole (s : State) (x : ConsoleUnit) : State := { s with console := x }
def State.setForward (s : State) (x : ForwardUnit) : State := { s with forward := x }
def State.setElection (s : State) (x : ElectionUnit) : State := { s with election := x }
def State.setAgent (s : State) (x : Agent) : State := { s with agent := x }

/-- The unit of a fibre port. -/
def State.port (s : State) : PortId → FibrePort
  | .a => s.portA
  | .b => s.portB

/-- The state with the unit of a fibre port replaced. -/
def State.setPort (s : State) (p : PortId) (x : FibrePort) : State :=
  match p with
  | .a => { s with portA := x }
  | .b => { s with portB := x }

/-- The link state of a port is UP. -/
def FibrePort.isUp (p : FibrePort) : Bool := p.link.state == .up

/-- The port across the node. -/
def otherPort : PortId → PortId
  | .a => .b
  | .b => .a

end Machine
end Sys2Proof
end

