-- ==== Sys2Proof/Machine/Wire.lean ====
section
/-!
DEFINITION. The wire layouts of R173: byte order, the two CRCs, and the bytes of frames, of the drive link records,
of the console records and of the identity record, each written and read.
-/
namespace Sys2Proof.Machine

/-! ### Byte order: the most significant byte first -/

/-- The low `n` bytes of a number, the most significant first. -/
def beBytes : Nat → Nat → List Byte
  | 0, _ => []
  | n + 1, x => BitVec.ofNat 8 (x / 256 ^ n) :: beBytes n x

/-- The number that bytes spell, the most significant first. -/
def beNat (l : List Byte) : Nat := l.foldl (fun a b => a * 256 + b.toNat) 0

/-- The number in the `n` bytes at offset `off`. -/
def fieldAt (l : List Byte) (off n : Nat) : Nat := beNat ((l.drop off).take n)

/-- The byte at offset `off`. -/
def byteAt (l : List Byte) (off : Nat) : Byte := l.getD off 0

/-- The bytes of a signed value in two's complement. -/
def beInt (n : Nat) (x : Int) : List Byte := beBytes n (BitVec.ofInt (8 * n) x).toNat

/-- The signed value in the `n` bytes at offset `off`. -/
def intAt (l : List Byte) (off n : Nat) : Int := (BitVec.ofNat (8 * n) (fieldAt l off n)).toInt

/-! ### The CRCs -/

/-- The CRC-16 register after one more bit (polynomial 1021h). -/
def crc16Bit (c : BitVec 16) (b : Bool) : BitVec 16 :=
  if (c.getLsbD 15) != b then (c <<< 1) ^^^ 0x1021 else c <<< 1

/-- The CRC-16 of bytes: from FFFFh, each byte most significant bit first, used as it stands. -/
def crc16 (l : List Byte) : BitVec 16 :=
  l.foldl (fun c x => [7, 6, 5, 4, 3, 2, 1, 0].foldl (fun c i => crc16Bit c (x.getLsbD i)) c) 0xFFFF

/-- The CRC-32 register after one more bit (polynomial 04C11DB7h). -/
def crc32Bit (c : BitVec 32) (b : Bool) : BitVec 32 :=
  if (c.getLsbD 31) != b then (c <<< 1) ^^^ 0x04C11DB7 else c <<< 1

/-- The CRC-32 of bytes: from FFFFFFFFh, each byte least significant bit first, reflected, then complemented. -/
def crc32 (l : List Byte) : BitVec 32 :=
  ~~~ (l.foldl (fun c x => [0, 1, 2, 3, 4, 5, 6, 7].foldl (fun c i => crc32Bit c (x.getLsbD i)) c) 0xFFFFFFFF).reverse

/-- The bytes with their CRC-16 after them. -/
def withCrc16 (l : List Byte) : List Byte := l ++ beBytes 2 (crc16 l).toNat

/-- The last two of the bytes are the CRC-16 of those before them. -/
def crc16Good (l : List Byte) : Bool :=
  2 ≤ l.length && l.drop (l.length - 2) == beBytes 2 (crc16 (l.take (l.length - 2))).toNat

end Sys2Proof.Machine

namespace Sys2Proof

/-! ### Codes -/

def FrameKind.code : FrameKind → Byte
  | .cycle => 1
  | .trip => 2
  | .claim => 3
  | .segment => 4
  | .tile => 5
  | .event => 6
  | .refusal => 7
  | .correction => 8
  | .request => 9
  | .answer => 10

def FrameKind.ofCode (b : Byte) : Option FrameKind :=
  match b.toNat with
  | 1 => some .cycle
  | 2 => some .trip
  | 3 => some .claim
  | 4 => some .segment
  | 5 => some .tile
  | 6 => some .event
  | 7 => some .refusal
  | 8 => some .correction
  | 9 => some .request
  | 10 => some .answer
  | _ => none

/-- The range of payload lengths of a kind (chapter 10.1). -/
def FrameKind.lengths : FrameKind → Nat × Nat
  | .cycle => (1044, 1044)
  | .trip => (5, 5)
  | .claim => (4, 4)
  | .segment => (8, 1048)
  | .tile => (4, 67)
  | .event => (2, 18)
  | .refusal => (4, 4)
  | .correction => (5, 5)
  | .request => (5, 1029)
  | .answer => (3, 1027)

def Rate.code : Rate → Byte
  | .full => 0
  | .reduced => 1

def Rate.ofCode (b : Byte) : Option Rate :=
  if b = 0 then some .full else if b = 1 then some .reduced else none

def Period.code : Period → Byte
  | .us250 => 0
  | .us500 => 1
  | .us1000 => 2
  | .us2000 => 3

def Period.ofCode (b : Byte) : Option Period :=
  if b = 0 then some .us250 else if b = 1 then some .us500
  else if b = 2 then some .us1000 else if b = 3 then some .us2000 else none

def SyncState.code : SyncState → Nat
  | .unsynced => 0
  | .synced => 1
  | .coasting => 2
  | .lost => 3

def RingState.code : RingState → Nat
  | .ring => 0
  | .lineA => 1
  | .lineB => 2
  | .isolated => 3

def Reason.code : Reason → Byte
  | .complete => 0
  | .short => 1
  | .damaged => 2
  | .missing => 3

def Status.code : Status → Byte
  | .ok => 0
  | .unknown => 1
  | .range => 2
  | .state => 3
  | .denied => 4
  | .busy => 5
  | .cause => 6
  | .malformed => 7

def RefuseReason.code : RefuseReason → Byte
  | .full => 0
  | .unaddressed => 1

def RefuseReason.ofCode (b : Byte) : Option RefuseReason :=
  if b = 0 then some .full else if b = 1 then some .unaddressed else none

def RequestKind.ofCode (b : Byte) : Option RequestKind :=
  match b.toNat with
  | 1 => some .read
  | 2 => some .write
  | 3 => some .readClear
  | 4 => some .tripReset
  | 5 => some .tripCommit
  | 6 => some .axis
  | 7 => some .setSpeed
  | 8 => some .streamRestart
  | 9 => some .retrain
  | 10 => some .ringRestart
  | 11 => some .nodeReset
  | _ => none

def Item.ofCode (b : Byte) : Option Item :=
  match b.toNat with
  | 1 => some .node
  | 2 => some .axis
  | 3 => some .term
  | 4 => some .programLength
  | 5 => some .activeTerm
  | 6 => some .action
  | 7 => some .stream
  | 8 => some .mark
  | 9 => some .tile
  | 10 => some .port
  | 11 => some .view
  | 12 => some .counters
  | _ => none

end Sys2Proof

namespace Sys2Proof.Machine

/-! ### Payloads and frames -/

/-- The bytes of an answer's data: those R173 gives, or those of an entry, whose layout the manual leaves open. -/
def AnswerData.toBytes : AnswerData → List Byte
  | .bytes l => l
  | .entry e => (List.range (Config.entryLength e).val).map (Config.entryByte e)

/-- How many data bytes an answer carries. -/
def AnswerData.length : AnswerData → Nat
  | .bytes l => l.length
  | .entry e => (Config.entryLength e).val

/-- The bytes of a payload. -/
def Payload.toBytes : Payload → List Byte
  | .bytes l => l
  | .answer tag st e => beBytes 2 tag.toNat ++ [st.code] ++ (AnswerData.entry e).toBytes

/-- The length of a payload. -/
def Payload.length : Payload → Nat
  | .bytes l => l.length
  | .answer _ _ e => 3 + (AnswerData.entry e).length

/-- The length of a frame on the fibre: its payload and 12 bytes (chapter 10.1). -/
def Frame.length (f : Frame) : Nat := f.payload.length + 12

/-- The payload bytes of a frame. -/
def Frame.data (f : Frame) : List Byte := f.payload.toBytes

/-- Bytes 0 to 5 of the common header. -/
def Frame.header (f : Frame) : List Byte :=
  [f.kind.code, f.dest, f.origin, f.hop] ++ beBytes 2 f.payload.length

/-- The bytes of a frame as a port sends it, header check and CRC-32 computed (R157, R173). -/
def Frame.encode (f : Frame) : List Byte :=
  let body := withCrc16 f.header ++ f.data
  body ++ beBytes 4 (crc32 body).toNat

/-- What a receiving port makes of the bytes of a frame (R156). -/
inductive Reception where
  /-- the header check, the length or the CRC-32 is bad -/
  | error
  /-- an unknown kind, or a length outside its kind's range -/
  | malformed
  | frame (f : Frame)
  deriving DecidableEq, Repr

/-- The checks of R156 on the bytes of a frame, in the order it gives them. -/
def receive (l : List Byte) : Reception :=
  if l.length < 8 || !crc16Good (l.take 8) then .error
  else
    let n := fieldAt l 4 2
    if 1100 < n || l.length < n + 12 || ((l.drop (8 + n)).take 4 != beBytes 4 (crc32 (l.take (8 + n))).toNat) then .error
    else
      match FrameKind.ofCode (byteAt l 0) with
      | none => .malformed
      | some k =>
        if n < k.lengths.1 || k.lengths.2 < n then .malformed
        else .frame ⟨k, byteAt l 1, byteAt l 2, byteAt l 3, .bytes ((l.drop 8).take n)⟩

/-- A frame this node builds: hop budget 128 (chapter 10.1). -/
def Frame.own (origin : Byte) (kind : FrameKind) (dest : Byte) (payload : Payload) : Frame :=
  ⟨kind, dest, origin, 128, payload⟩

/-- The frame as it is forwarded, its hop budget lowered by 1 (R157). -/
def Frame.lowered (f : Frame) : Frame := { f with hop := f.hop - 1 }

/-- The time a frame occupies a link (chapter 10.1). -/
def Frame.time (f : Frame) (r : Rate) : Time := f.length * r.byteTime

/-! ### Slots and cycle frames -/

/-- A slot with the written mark (bit 7 of byte 0). -/
def slotWritten (s : Slot) : Bool := s.getLsbD 63

/-- The own-raised word of a slot (bytes 4 to 7). -/
def slotWord (s : Slot) : Marks := s.setWidth 32

/-- A written slot (R2, R173); the bits of byte 0 to which R173 gives no meaning are 0 (DESIGN CHOICE, assumption 83). -/
def makeSlot (sync : SyncState) (links : RingState) (following faulted : Nat) (streams : Byte) (own : Marks) : Slot :=
  ((BitVec.ofNat 8 (128 + sync.code * 16 + links.code) : BitVec 8) ++ (BitVec.ofNat 8 following : BitVec 8)
    ++ (BitVec.ofNat 8 faulted : BitVec 8) ++ streams ++ own : BitVec 64)

/-- The next `n` slots of a slot area's bytes. -/
def slotsOf : Nat → List Byte → List Slot
  | 0, _ => []
  | n + 1, l => BitVec.ofNat 64 (beNat (l.take 8)) :: slotsOf n (l.drop 8)

theorem length_slotsOf (n : Nat) (l : List Byte) : (slotsOf n l).length = n := by
  induction n generalizing l with
  | zero => rfl
  | succ n ih => simp [slotsOf, ih]

/-- The slot area in the bytes at offset `off`. -/
def areaAt (l : List Byte) (off : Nat) : SlotArea := ⟨slotsOf 62 (l.drop off), length_slotsOf 62 _⟩

/-- A slot as it is sent: an unwritten one has every byte 0 (R173). -/
def slotSent (s : Slot) : Slot := if slotWritten s then s else 0

/-- The bytes of a slot area as they are sent. -/
def SlotArea.toBytes (a : SlotArea) : List Byte := a.list.flatMap (fun s => beBytes 8 (slotSent s).toNat)

/-- The fields of a cycle frame (chapter 1.1). -/
structure CycleCopy where
  number : BitVec 16
  rate : Option Rate
  period : Option Period
  master : Byte
  position : ExtPos
  v : Int
  vt : Int
  outDelay : Nat
  total : Marks
  previous : SlotArea
  current : SlotArea
  deriving DecidableEq, Repr

/-- The fields read from a cycle frame's payload; `none` for a rate or period code that R173 does not name. -/
def readCycle (l : List Byte) : CycleCopy :=
  { number := BitVec.ofNat 16 (fieldAt l 0 2)
    rate := Rate.ofCode (byteAt l 2)
    period := Period.ofCode (byteAt l 3)
    master := byteAt l 4
    position := BitVec.ofNat 40 (fieldAt l 5 5)
    v := intAt l 10 4
    vt := intAt l 14 4
    outDelay := fieldAt l 18 2
    total := BitVec.ofNat 32 (fieldAt l 20 4)
    previous := areaAt l 52
    current := areaAt l 548 }

/-- The payload of the cycle frame a master sends (R1, R173). -/
def writeCycle (number : BitVec 16) (rate : Rate) (period : Period) (master : Byte) (position : ExtPos) (v vt : Int)
    (outDelay : Nat) (total : Marks) (previous current : SlotArea) : List Byte :=
  beBytes 2 number.toNat ++ [rate.code, period.code, master] ++ beBytes 5 position.toNat ++ beInt 4 v ++ beInt 4 vt
    ++ beBytes 2 outDelay ++ beBytes 4 total.toNat ++ List.replicate 28 0 ++ previous.toBytes ++ current.toBytes

/-- A cycle frame's payload with the slot of address `n` written into its current area (R2). Every other byte goes on as it came, also
those of a slot that another node left unwritten (DEDUCED, assumption 76). -/
def withSlot (l : List Byte) (n : Nat) (s : Slot) : List Byte :=
  l.take (548 + 8 * (n - 1)) ++ beBytes 8 s.toNat ++ l.drop (548 + 8 * (n - 1) + 8)

/-! ### Payloads of the other kinds, and what is read from them -/

/-- TRIP: trip sequence, own-raised word (chapter 5.1). -/
def tripPayload (seq : Byte) (own : Marks) : List Byte := seq :: beBytes 4 own.toNat

/-- CLAIM: claimer address, priority, attempt number, rate floor (chapter 11.3). -/
def claimPayload (claimer : Byte) (priority attempt : Nat) (floor : Rate) : List Byte :=
  [claimer, BitVec.ofNat 8 priority, BitVec.ofNat 8 attempt, floor.code]

/-- CORRECTION: target axis, signed correction (R43). -/
def correctionPayload (axis : Nat) (c : Int) : List Byte := BitVec.ofNat 8 axis :: beInt 4 c

/-- TILE: tile number, version, content (R142). -/
def tilePayload (tile : Byte) (version : BitVec 16) (content : List Byte) : List Byte :=
  tile :: beBytes 2 version.toNat ++ content

/-- EVENT: code, data (R142). -/
def eventPayload (code : BitVec 16) (data : List Byte) : List Byte := beBytes 2 code.toNat ++ data

/-- REFUSAL: the event's destination, its code, the reason (R150). -/
def refusalPayload (dest : Byte) (code : BitVec 16) (reason : RefuseReason) : List Byte :=
  dest :: beBytes 2 code.toNat ++ [reason.code]

/-- REQUEST: tag, request kind, item, index, data (R142). -/
def requestPayload (tag : BitVec 16) (kind item index : Byte) (data : List Byte) : List Byte :=
  beBytes 2 tag.toNat ++ [kind, item, index] ++ data

/-- ANSWER: tag, status, data (R195). -/
def answerPayload (tag : BitVec 16) (st : Status) : AnswerData → Payload
  | .bytes l => .bytes (beBytes 2 tag.toNat ++ [st.code] ++ l)
  | .entry e => .answer tag st e

/-! ### Line headers and segments -/

/-- A line header: 16 bytes (R173). -/
def lineHeader (line : BitVec 16) (tag : ExtPos) (reason : Reason) (valid : Nat) : List Byte :=
  beBytes 2 line.toNat ++ beBytes 5 tag.toNat ++ [reason.code] ++ beBytes 2 valid ++ List.replicate 6 0

/-- The payload of a segment frame (R111, R173); bits 7 to 2 of byte 7 are 0 (DESIGN CHOICE, assumption 83). -/
def segmentPayload (destCtx srcCtx : Nat) (line : BitVec 16) (index offset : Nat) (last : Bool) (header pixels : List Byte) :
    List Byte :=
  [BitVec.ofNat 8 destCtx, BitVec.ofNat 8 srcCtx] ++ beBytes 2 line.toNat ++ [BitVec.ofNat 8 index] ++ beBytes 2 offset
    ++ [BitVec.ofNat 8 ((if index = 0 then 1 else 0) + (if last then 2 else 0))]
    ++ (if index = 0 then header else []) ++ pixels

/-- The fields of a segment frame. -/
structure Segment where
  destCtx : Nat
  srcCtx : Nat
  line : BitVec 16
  index : Nat
  offset : Nat
  first : Bool
  last : Bool
  tag : ExtPos
  pixels : List Byte
  deriving DecidableEq, Repr

/-- The fields read from a segment frame's payload: the line header stands in segment 0 only (R173). Of a segment 0 too short for
its header, the tag is what the bytes from offset 10 on spell, 0 if there are none (DESIGN CHOICE, assumption 52). -/
def readSegment (l : List Byte) : Segment :=
  { destCtx := fieldAt l 0 1
    srcCtx := fieldAt l 1 1
    line := BitVec.ofNat 16 (fieldAt l 2 2)
    index := fieldAt l 4 1
    offset := fieldAt l 5 2
    first := (byteAt l 7).getLsbD 0
    last := (byteAt l 7).getLsbD 1
    tag := if fieldAt l 4 1 = 0 then BitVec.ofNat 40 (fieldAt l 10 5) else 0
    pixels := l.drop (if fieldAt l 4 1 = 0 then 24 else 8) }

/-! ### Drive link records -/

/-- The bytes of a setpoint record (R46, R173); bits 1 and 0 of byte 0 are 0 (DESIGN CHOICE, assumption 83). -/
def setpointRecord (tag : Byte) (h : Handed) : List Byte :=
  withCrc16 ([BitVec.ofNat 8 (h.axis * 16 + (if h.enabled then 8 else 0) + (if h.stop then 4 else 0)), tag]
    ++ beBytes 4 h.setpoint.toNat ++ beInt 3 h.feed)

/-- The fields of an actual record. -/
structure ActualFields where
  crcGood : Bool
  address : Nat
  ready : Bool
  fault : Bool
  tag : Byte
  position : BitVec 32
  deriving DecidableEq, Repr

/-- The fields read from an actual record (R173). -/
def readActual (l : List Byte) : ActualFields :=
  { crcGood := crc16Good l
    address := fieldAt l 0 1 / 16
    ready := (byteAt l 0).getLsbD 1
    fault := (byteAt l 0).getLsbD 0
    tag := byteAt l 1
    position := BitVec.ofNat 32 (fieldAt l 2 4) }

/-! ### Console records -/

/-- The record from the console that the bytes spell, or none for a bad record: a wrong CRC-16, a kind that is not
TILE, EVENT or REQUEST, or a length that does not fit its kind (R140, R173). -/
def readConsoleRecord (l : List Byte) : Option InRecord :=
  let n := fieldAt l 0 2
  if l.length != n + 4 || !crc16Good l then none
  else
    let body := (l.drop 3).take (n - 1)
    match (byteAt l 2).toNat with
    | 1 => if 6 ≤ n && n ≤ 69 then
        some (.tile (byteAt body 0) (byteAt body 1) (BitVec.ofNat 16 (fieldAt body 2 2)) (body.drop 4)) else none
    | 2 => if 4 ≤ n && n ≤ 20 then
        some (.event (byteAt body 0) (BitVec.ofNat 16 (fieldAt body 1 2)) (body.drop 3)) else none
    | 3 => if 7 ≤ n && n ≤ 1031 then
        some (.request (BitVec.ofNat 16 (fieldAt body 0 2)) (byteAt body 2) (byteAt body 3) (byteAt body 4)
          (byteAt body 5) (body.drop 6)) else none
    | _ => none

/-- A console record: length, kind, fields, CRC-16 (R173). -/
def consoleRecord (kind : Byte) (fields : List Byte) : List Byte :=
  withCrc16 (beBytes 2 (fields.length + 1) ++ [kind] ++ fields)

/-- The bytes of a record from the console, as a console sends it. -/
def InRecord.toBytes : InRecord → List Byte
  | .tile d t v c => consoleRecord 1 ([d, t] ++ beBytes 2 v.toNat ++ c)
  | .event d c x => consoleRecord 2 ([d] ++ beBytes 2 c.toNat ++ x)
  | .request g d k i x y => consoleRecord 3 (beBytes 2 g.toNat ++ [d, k, i, x] ++ y)

/-- The bytes a tile's content is sent as; a system tile's fields stand in the order of R147. Tile 254 uses R173's codes of sync
state, ring rate, ring state and port rate (DESIGN CHOICE, assumption 53); the other codes are free (assumption 13). -/
def TileContent.toBytes : TileContent → List Byte
  | .bytes l => l
  | .trips view own => beBytes 4 view.toNat ++ beBytes 4 own.toNat
  | .axes l => l.flatMap (fun a => [Config.axisStateCode a.state, Config.axisFlagsCode a.flags, Config.axisFlagsCode a.mask])
  | .ring r => [BitVec.ofNat 8 r.sync.code, Rate.code r.ringRate, BitVec.ofNat 8 r.ring.code, Config.electionCode r.election,
      Config.linkCode r.linkA, Rate.code r.rateA, Config.linkCode r.linkB, Rate.code r.rateB]
  | .streams t => t.contexts.map (fun c => Config.streamCode c.1 c.2)
      ++ t.marks.flatMap (fun m => [(Config.markCode m.1 m.2).1, (Config.markCode m.1 m.2).2])

/-- The bytes of a record to the console (R173). -/
def OutRecord.toBytes : OutRecord → List Byte
  | .tile t w v c => consoleRecord 0x81 ([BitVec.ofNat 8 t, BitVec.ofNat 8 w] ++ beBytes 2 (v.getD 0).toNat ++ c.toBytes)
  | .event e => consoleRecord 0x82 ([e.origin] ++ beBytes 2 e.code.toNat ++ e.data)
  | .reply (.refused d c r) => consoleRecord 0x83 ([d] ++ beBytes 2 c.toNat ++ [r.code])
  | .reply (.answer g n st x _) => consoleRecord 0x84 (beBytes 2 g.toNat ++ [n, st] ++ x.toBytes)

/-! ### Identity records -/

/-- The identity record a locked port sends (R187, R173). -/
def identityRecord (straps : BitVec 6) (p : PortId) : List Byte :=
  withCrc16 [straps.setWidth 8, match p with | .a => 0 | .b => 1]

/-- The time that its 4 bytes occupy a link (R187). -/
def identityTime (r : Rate) : Time := 4 * r.byteTime

end Sys2Proof.Machine
end

