-- ==== Sys2Proof/Machine/Flags.lean ====
section
/-!
DEFINITION. The sticky axis flags (R41), the axis trip source they make (R42), the stop-group assignments of the
trip view (R89), the ring state the links make (R158), the full mark of a stream context (R102), and with these
the conditions of trip sources 0 to 31 (R59) and of the view sources (R61).
-/
namespace Sys2Proof

/-- The flags of `a` and those of `b`. -/
def AxisFlags.union (a b : AxisFlags) : AxisFlags :=
  ⟨a.sat || b.sat, a.clamp || b.clamp, a.ferr || b.ferr, a.silent || b.silent, a.dfault || b.dfault⟩

/-- The flags of `a` that `b` does not mark (R41, R42). -/
def AxisFlags.minus (a b : AxisFlags) : AxisFlags :=
  ⟨a.sat && !b.sat, a.clamp && !b.clamp, a.ferr && !b.ferr, a.silent && !b.silent, a.dfault && !b.dfault⟩

/-- At least one flag is set. -/
def AxisFlags.any (a : AxisFlags) : Bool := a.sat || a.clamp || a.ferr || a.silent || a.dfault

namespace Machine

/-- The axis is an active trip source: a set flag has a clear mask (R42). -/
def AxisEntry.tripping (e : AxisEntry) : Bool := (e.flags.minus e.mask).any

/-- A kind that stops or disables axes (R40). -/
def stopsAxes : ActionKind → Bool
  | .axisStop => true
  | .torqueOff => true
  | _ => false

/-- Channel `c` assigns AXIS_STOP or TORQUE_OFF to group `g` (R89): it is in the view, its kind is one of the two,
and it marks the group. -/
def assignsStop (actions : Table Action 32) (view : Marks) (c g : Nat) : Bool :=
  view.getLsbD c && stopsAxes (actions.getD c {}).kind && (actions.getD c {}).groups.getLsbD g

/-- Some channel in the view assigns AXIS_STOP or TORQUE_OFF to group `g` (R23, R36, R40). -/
def groupStopped (t : TripUnit) (g : Nat) : Bool :=
  (List.range 32).any (fun c => assignsStop t.actions t.view c g)

/-- The strength of a kind (R89). -/
def ActionKind.rank : ActionKind → Nat
  | .none => 0
  | .syncStop => 1
  | .axisStop => 2
  | .torqueOff => 3

/-- The stronger of two kinds. -/
def stronger (a b : ActionKind) : ActionKind := if ActionKind.rank a < ActionKind.rank b then b else a

/-- The strongest assignment of group `g`, or NONE (R89). -/
def strongest (actions : Table Action 32) (view : Marks) (g : Nat) : ActionKind :=
  (List.range 32).foldl
    (fun k c => if view.getLsbD c && (actions.getD c {}).groups.getLsbD g then stronger k (actions.getD c {}).kind else k)
    .none

/-- A channel with the MASTER_STOP mark is in the view (R15, R16, R91). -/
def masterStopInView (t : TripUnit) : Bool :=
  (List.range 32).any (fun c => t.view.getLsbD c && (t.actions.getD c {}).masterStop)

/-- The trip outputs asserted by a view (R90). -/
def outputsOf (actions : Table Action 32) (view : Marks) : BitVec 4 :=
  marksWhere 4 (fun p => (List.range 32).any (fun c => view.getLsbD c && (actions.getD c {}).pins.getLsbD p))

/-- The levels at the pins TO0 to TO3, a mark for low (R90): all low while RESET is held, else those the trip unit asserts. -/
def State.toPins (s : State) : BitVec 4 := if s.resetHeld then 0xF else s.trip.outputs

/-- What a fibre port sends at one instant (R185 to R187). -/
inductive PortSignal where
  /-- no light -/
  | dark
  /-- the acquisition signal -/
  | acquisition (rate : Rate)
  /-- an identity record -/
  | identity (rate : Rate) (record : List Byte)
  /-- a frame -/
  | frame (rate : Rate) (f : Frame)
  /-- an UP link between two frames -/
  | idle (rate : Rate)
  deriving DecidableEq, Repr

/-- What port `p` sends now: nothing in DISABLED; in ACQUIRE the acquisition signal and, since word lock, its identity record every
10 µs; in UP the identity record once more, and then its frames (R185, R187). It is dark while RESET is held (DESIGN CHOICE,
assumption 6); the acquisition signal stands between two identity records and while the retry timer runs (DEDUCED, assumption 34). -/
def State.portSends (s : State) (p : PortId) : PortSignal :=
  let l := (s.port p).link
  let record := PortSignal.identity l.rate (identityRecord s.straps p)
  let since := l.identity.map fun t => s.now - t
  if s.resetHeld then .dark
  else
    match l.state with
    | .disabled => .dark
    | .acquire => if since.any (fun d => d % 10000 < identityTime l.rate) then record else .acquisition l.rate
    | .up =>
      if since.any (· < identityTime l.rate) then record
      else
        match (s.port p).sending with
        | some x => .frame l.rate x.frame
        | none => .idle l.rate

/-- The ring state the two link states make (R158). -/
def ringOf (a b : LinkState) : RingState :=
  match a == .up, b == .up with
  | true, true => .ring
  | true, false => .lineA
  | false, true => .lineB
  | false, false => .isolated

/-- The blocks a line needs (R99). -/
def StreamRecord.slotSize (r : StreamRecord) : Nat := (16 + r.length * r.pixel + 1023) / 1024

/-- The number of line slots of the region (R99). -/
def StreamRecord.capacity (r : StreamRecord) : Nat := r.size / r.slotSize

/-- The full mark: the context is not OFF and its held count equals its capacity (R2, R102, R147). -/
def StreamContext.full (c : StreamContext) : Bool :=
  c.record.mode != .off && c.work.held == c.record.capacity

/-- The condition of trip source `k` below 32 (the table of chapter 4.1). -/
def ownerCondition (s : State) (k : Nat) : Bool :=
  if k < 8 then s.trip.filtered.getLsbD k
  else if k < 24 then (s.axis.entries.getD (k - 8) {}).tripping
  else if k = 24 then s.cycle.sync == .lost
  else if k = 25 then s.cycle.jumpFlag && !s.cycle.jumpMasked
  else if k = 26 then !s.portA.isUp
  else if k = 27 then !s.portB.isUp
  else if k = 28 then s.forward.ring == .lineA || s.forward.ring == .lineB
  else if k = 29 then s.election.state == .failed
  else if k = 30 then (s.mark.entries.getD 0 {}).search.status == .lost
  else (s.mark.entries.getD 1 {}).search.status == .lost

/-- The condition of every source: source `32 + c` follows channel `c` of the view (R61). -/
def conditions (s : State) : BitVec 64 :=
  s.trip.view ++ marksWhere 32 (ownerCondition s)

/-- What the source set becomes when every change handed so far has been taken. -/
def handedSources (t : TripUnit) : BitVec 64 :=
  t.changes.foldl (fun x c => (x &&& ~~~c.mask) ||| (c.value &&& c.mask)) t.sources

end Machine
end Sys2Proof
end

