-- ==== Sys2Proof/Machine/Tiles.lean ====
section
/-!
DEFINITION. The tile table and the delivery queue (R144, R147, R148): what the four system tiles show, the writing of a
system tile, and an update of an ordinary one.
-/
namespace Sys2Proof.Machine

/-- What tile 252 shows: the trip view and the own-raised word, as R96 and R147 say. -/
def shownTrips (s : State) : TileContent := .trips s.trip.view s.trip.own

/-- The strongest assignment of group `g` read through a tile 252 (R89): the one that the trip view it carries makes under the node's
action table, SYNC_STOP included; the tile's 8 bytes carry no assignment of their own (R147; DEDUCED, assumption 61). -/
def TileContent.strongest (c : TileContent) (actions : Table Action 32) (g : Nat) : Option ActionKind :=
  match c with
  | .trips view _ => some (Machine.strongest actions view g)
  | _ => none

/-- What tile 253 shows (R147). -/
def shownAxes (s : State) : TileContent :=
  .axes (s.axis.entries.list.map (fun e => ⟨e.state, e.flags, e.mask⟩))

/-- What tile 254 shows (R147). -/
def shownRing (s : State) : TileContent :=
  .ring ⟨s.cycle.sync, s.cycle.ringRate, s.forward.ring, s.election.state, s.portA.link.state, s.portA.link.rate,
    s.portB.link.state, s.portB.link.rate⟩

/-- What tile 255 shows (R147). -/
def shownStreams (s : State) : TileContent :=
  .streams ⟨s.image.contexts.list.map (fun c => (c.record.mode, c.full)),
    s.mark.entries.list.map (fun m => (m.search.status, m.search.miss))⟩

/-- The console unit writes system tile `n` when its content has changed (R147): the version is raised by 1, the
tile becomes DIRTY, and joins the tail of the system part if it was not DIRTY. -/
def ConsoleUnit.writeSystem (u : ConsoleUnit) (n writer : Nat) (content : TileContent) : ConsoleUnit :=
  let t := u.tiles.getD n {}
  if t.content = content then u
  else
    { u with
      tiles := u.tiles.set n
        { t with state := .dirty, lastWriter := writer, version := some (t.version.getD 0 + 1), content := content }
      systemQueue := if t.state = .dirty then u.systemQueue else u.systemQueue ++ [n] }

/-- System tile 252 after a change of the trip view or of the own-raised word (R74, R87). -/
def showTrips (s : State) : State := s.setConsole (s.console.writeSystem 252 s.writer (shownTrips s))

/-- System tile 253 after a change of an axis state, flag or mask (R45). -/
def showAxes (s : State) : State := s.setConsole (s.console.writeSystem 253 s.writer (shownAxes s))

/-- System tile 254 after a change of one of its fields. -/
def showRing (s : State) : State := s.setConsole (s.console.writeSystem 254 s.writer (shownRing s))

/-- System tile 255 after a change of a mode, a full mark, a status or a miss count. -/
def showStreams (s : State) : State := s.setConsole (s.console.writeSystem 255 s.writer (shownStreams s))

/-- A tile update judged against the entry and, if accepted, taken (R144). -/
def ConsoleUnit.update (u : ConsoleUnit) (n writer : Nat) (version : BitVec 16) (content : List Byte) : ConsoleUnit :=
  let t := u.tiles.getD n {}
  if 252 ≤ n || (t.permitted != 0 && t.permitted != writer) then
    { u with counters := { u.counters with tileRefused := bump u.counters.tileRefused } }
  else if writer == t.lastWriter && t.version.any (fun y => !newer version y) then
    { u with counters := { u.counters with tileStale := bump u.counters.tileStale } }
  else
    { u with
      tiles := u.tiles.set n
        { t with state := .dirty, lastWriter := writer, version := some version, content := .bytes content }
      ordinaryQueue := if t.state = .dirty then u.ordinaryQueue else u.ordinaryQueue ++ [n]
      counters := { u.counters with tileAccepted := bump u.counters.tileAccepted } }

/-- A record placed in the reply queue, or lost and counted when it holds 16 (R153). -/
def ConsoleUnit.reply (u : ConsoleUnit) (r : Reply) : ConsoleUnit :=
  if u.replies.length < 16 then { u with replies := u.replies ++ [r] }
  else { u with counters := { u.counters with replyLost := bump u.counters.replyLost } }

/-- A record placed in the reply queue of the node. -/
def placeReply (s : State) (r : Reply) : State := s.setConsole (s.console.reply r)

end Sys2Proof.Machine
end

