-- ==== Sys2Proof/Machine/Axis.lean ====
section
/-!
DEFINITION. The axis unit (chapter 2): the computation at a cycle event, the state changes of requests and trip
actions, register corrections, and the WRITE of an AXIS item.
-/
namespace Sys2Proof.Machine

/-! ### The computation (R26 to R34) -/

/-- The applied offset after one slew (R29). -/
def AxisEntry.slewed (e : AxisEntry) : Int := approach e.offset e.target e.slew

/-- The feed-forward range (R30). -/
def feedInRange (x : Int) : Bool := -8388608 ≤ x && x ≤ 8388607

/-- The end of a computation in FOLLOW, STOPPING or STOPPED (R28 to R32): the offset slews, the setpoint is S + O + C,
and the feed-forward is the velocity plus the changes of O and C, cut to its range with SAT. -/
def AxisEntry.output (e : AxisEntry) (base : BitVec 32) (velocity : Int) : AxisEntry :=
  let feed := velocity + (e.slewed - e.offset) + (e.corr - e.corrUsed)
  { e with
    base := base
    offset := e.slewed
    corrUsed := e.corr
    v := velocity
    setpoint := base + wrap32 (e.slewed + e.corr)
    feed := clamp (-8388608) 8388607 feed
    flags := if feedInRange feed then e.flags else { e.flags with sat := true } }

/-- The numerator of the gear step (R27). -/
def AxisEntry.gearNum (e : AxisEntry) (step : Int) : Int := step * e.num + e.rem

/-- The whole quotient of the gear step, rounded toward minus infinity (R27). -/
def AxisEntry.gearQuot (e : AxisEntry) (step : Int) : Int := e.gearNum step / (e.den : Int)

/-- The new gear remainder (R27). -/
def AxisEntry.gearRem (e : AxisEntry) (step : Int) : Int := e.gearNum step % (e.den : Int)

/-- An axis in FOLLOW (R27, R28, R30). -/
def AxisEntry.computeFollow (e : AxisEntry) (step : Int) : AxisEntry :=
  { e.output (e.base + wrap32 (e.gearQuot step)) (e.gearQuot step) with rem := e.gearRem step }

/-- An axis in STOPPING (R31). -/
def AxisEntry.computeStopping (e : AxisEntry) : AxisEntry :=
  let v := slowDown e.v e.decel
  { e.output (e.base + wrap32 v) v with state := if v = 0 then .stopped else .stopping }

/-- An axis in STOPPED (R32). -/
def AxisEntry.computeStopped (e : AxisEntry) : AxisEntry := e.output e.base 0

/-- An axis in DISABLED (R33): the setpoint is kept on the drive's actual position. The feed-forward is 0 here also at the first computation
after OFF, where R34 lets a C written in OFF reach it, and Ca takes C (R26; DESIGN CHOICE, assumption 75). -/
def AxisEntry.computeDisabled (e : AxisEntry) : AxisEntry :=
  let base := match e.lastActual with
    | some a => a - wrap32 (e.slewed + e.corr)
    | none => e.base
  { e with
    rem := 0
    v := 0
    base := base
    offset := e.slewed
    corrUsed := e.corr
    setpoint := base + wrap32 (e.slewed + e.corr)
    feed := 0 }

/-- The computation of one axis by the rule of its state (R26). -/
def AxisEntry.compute (e : AxisEntry) (step : Int) : AxisEntry :=
  match e.state with
  | .off => e
  | .disabled => e.computeDisabled
  | .follow => e.computeFollow step
  | .stopping => e.computeStopping
  | .stopped => e.computeStopped

/-- The values handed to the drive link controller for one axis, if it is not in OFF (R26). -/
def AxisEntry.handed (e : AxisEntry) (axis : Nat) : Option Handed :=
  if e.state = .off then none
  else some ⟨axis, e.state != .disabled, e.state == .stopping || e.state == .stopped, e.setpoint, e.feed, e.offs,
    e.disables⟩

/-- Every axis computed (R26). -/
def AxisUnit.compute (u : AxisUnit) (step : Int) : AxisUnit :=
  { u with entries := u.entries.map (fun e => e.compute step) }

/-- The values handed for every axis not in OFF, in ascending axis number (R26, R49). -/
def AxisUnit.handed (u : AxisUnit) : List Handed :=
  (u.entries.list.mapIdx (fun i e => e.handed i)).filterMap id

/-! ### Changes of state (R35 to R40) -/

/-- Entry to DISABLED from a moving state (R38). -/
def AxisEntry.disable (e : AxisEntry) : AxisEntry :=
  { e with state := .disabled, rem := 0, v := 0, disables := e.disables + 1 }

/-- Entry to FOLLOW (R36): from DISABLED the base setpoint is set from the last actual. -/
def AxisEntry.engage (e : AxisEntry) : AxisEntry :=
  { e with
    state := .follow
    rem := 0
    v := 0
    base := if e.state = .disabled then (e.lastActual.getD 0) - wrap32 (e.offset + e.corr) else e.base }

/-- Entry to OFF (R39). The status that the drive gave last stays (DESIGN CHOICE, assumption 73). -/
def AxisEntry.release (e : AxisEntry) : AxisEntry :=
  { e with state := .off, rem := 0, v := 0, lastActual := none, miss := 0, offs := e.offs + 1 }

/-- What a trip action does to an axis of the group (R40). -/
def AxisEntry.tripped (e : AxisEntry) (k : ActionKind) : AxisEntry :=
  match k, e.state with
  | .torqueOff, .follow => e.disable
  | .torqueOff, .stopping => e.disable
  | .torqueOff, .stopped => e.disable
  | .axisStop, .follow => { e with state := .stopping }
  | _, _ => e

/-- A reported group (R40): every axis that uses the group takes the action. -/
def AxisUnit.groupAction (u : AxisUnit) (g : Nat) (k : ActionKind) : AxisUnit :=
  { u with entries := u.entries.map (fun e => if e.groupInUse = g then e.tripped k else e) }

/-- The stop group written last comes into use (R23). The law of R40 holds from that moment on: an axis in FOLLOW whose group a
channel in the view stops takes the group's strongest assignment (assumption 46). -/
def AxisEntry.takeGroup (e : AxisEntry) (t : TripUnit) : AxisEntry :=
  let x := { e with groupInUse := e.group }
  if e.state = .follow && groupStopped t e.group then x.tripped (strongest t.actions t.view e.group) else x

/-- The stop groups written since the last cycle event come into use (R23). -/
def AxisUnit.takeGroups (u : AxisUnit) (t : TripUnit) : AxisUnit :=
  { u with entries := u.entries.map (fun e => e.takeGroup t) }

/-- ENABLE (R35). -/
def AxisEntry.enableRequest (e : AxisEntry) : Status × AxisEntry :=
  match e.state with
  | .off => (.ok, { e with state := .disabled })
  | _ => (.state, e)

/-- ENGAGE (R36); `ready` holds the conditions on the node and `blocked` the one on the axis's stop group. -/
def AxisEntry.engageRequest (e : AxisEntry) (ready blocked : Bool) : Status × AxisEntry :=
  match e.state with
  | .disabled => if ready && !blocked && e.lastActual.isSome then (.ok, e.engage) else (.state, e)
  | .stopped => if ready && !blocked then (.ok, e.engage) else (.state, e)
  | _ => (.state, e)

/-- STOP (R37). -/
def AxisEntry.stopRequest (e : AxisEntry) : Status × AxisEntry :=
  match e.state with
  | .follow => (.ok, { e with state := .stopping })
  | .stopping => (.ok, e)
  | .stopped => (.ok, e)
  | _ => (.state, e)

/-- DISABLE (R38). -/
def AxisEntry.disableRequest (e : AxisEntry) : Status × AxisEntry :=
  match e.state with
  | .off => (.state, e)
  | .disabled => (.ok, e)
  | _ => (.ok, e.disable)

/-- RELEASE (R39). -/
def AxisEntry.releaseRequest (e : AxisEntry) : Status × AxisEntry :=
  match e.state with
  | .disabled => (.ok, e.release)
  | .stopped => (.ok, e.release)
  | _ => (.state, e)

/-! ### Register corrections (R43, R44) -/

/-- The correction of an axis after a correction frame's value is taken (R43). -/
def AxisEntry.corrected (e : AxisEntry) (c : Int) : Int :=
  clampMag e.corrMax (e.corr + clampMag e.corrStep c)

/-- One of the two clamps of R43 changed the value. -/
def AxisEntry.correctionClamped (e : AxisEntry) (c : Int) : Bool :=
  clampMag e.corrStep c != c || e.corrected c != e.corr + clampMag e.corrStep c

/-- A correction frame taken by the axis unit (R43, R44). -/
def AxisUnit.correct (u : AxisUnit) (axis : Nat) (c : Int) : AxisUnit :=
  match u.entries.get? axis with
  | some e =>
    if e.state = .follow then
      { entries := u.entries.set axis
          { e with
            corr := e.corrected c
            flags := if e.correctionClamped c then { e.flags with clamp := true } else e.flags }
        counters := { u.counters with
          taken := bump u.counters.taken
          clamped := if e.correctionClamped c then bump u.counters.clamped else u.counters.clamped } }
    else { u with counters := { u.counters with ignored := bump u.counters.ignored } }
  | none => { u with counters := { u.counters with ignored := bump u.counters.ignored } }

/-! ### The WRITE of an AXIS item (R23 to R25, R41, R42) -/

/-- Every named value, if any, lies in a range. -/
def within (x : Option Nat) (lo hi : Nat) : Bool := x.all (fun v => lo ≤ v && v ≤ hi)

/-- Every named signed value, if any, lies in a range. -/
def withinInt (x : Option Int) (lo hi : Int) : Bool := x.all (fun v => lo ≤ v && v ≤ hi)

/-- The named values lie in their ranges of R22, C aside. -/
def AxisWrite.inRange (w : AxisWrite) : Bool :=
  within w.group 0 3 && withinInt w.num (-32768) 32767 && w.num != some 0 && within w.den 1 65535
    && withinInt w.offset (-2147483648) 2147483647 && withinInt w.target (-2147483648) 2147483647
    && within w.slew 1 65535 && within w.corrMax 0 16777216 && within w.corrStep 1 65535
    && within w.ferrLimit 1 16777216 && within w.decel 1 65535

/-- The answer status of a WRITE of an AXIS item (R23, R24), `stopped g` saying whether a channel in the view stops
group `g`. The rules do not order the checks; every check that gives RANGE comes before those that give STATE, and a field that
may only be read (R, miss count, v and the like) gives STATE whatever value the write gives it, one outside its range of R22 too: the mark
`readOnly` carries no value (DESIGN CHOICE, assumption 16). -/
def AxisEntry.checkWrite (e : AxisEntry) (w : AxisWrite) (stopped : Nat → Bool) : Status :=
  if !AxisWrite.inRange w then .range
  else if !withinInt w.corr (-((w.corrMax.getD e.corrMax : Nat) : Int)) ((w.corrMax.getD e.corrMax : Nat) : Int) then .range
  else if e.state = .off && w.offset.isSome && w.target.isSome && w.offset != w.target then .range
  else if w.readOnly then .state
  else if (w.num.isSome || w.den.isSome) && (e.state = .follow || e.state = .stopping) then .state
  else if e.state = .follow && w.group.any stopped then .state
  else if e.state != .off && w.offset.isSome then .state
  else .ok

/-- The CLAMP flag after an accepted write (R25, R41): `lowered` says that Cmax fell below the magnitude of C. -/
def clampFlag (old marked lowered : Bool) : Bool :=
  if lowered then (if marked then Config.clampAfterClear else true) else old && !marked

/-- The entry after an accepted WRITE (R23 to R25, R41, R42). A new stop group stands in the entry at once and is used from the
next cycle event (`AxisEntry.takeGroup`). -/
def AxisEntry.applyWrite (e : AxisEntry) (w : AxisWrite) : AxisEntry :=
  let cmax := w.corrMax.getD e.corrMax
  let lowered := w.corrMax.isSome && w.corr.isNone && cmax < e.corr.natAbs
  let marks := w.clear.getD {}
  let aim := if e.state = .off then (w.offset.orElse fun _ => w.target) else w.target
  { e with
    group := w.group.getD e.group
    num := w.num.getD e.num
    den := w.den.getD e.den
    rem := if w.den.isSome then 0 else e.rem
    offset := if e.state = .off then aim.getD e.offset else e.offset
    target := aim.getD e.target
    slew := w.slew.getD e.slew
    corr := match w.corr with
      | some c => c
      | none => if lowered then clampMag cmax e.corr else e.corr
    corrMax := cmax
    corrStep := w.corrStep.getD e.corrStep
    ferrLimit := w.ferrLimit.getD e.ferrLimit
    decel := w.decel.getD e.decel
    flags := { e.flags.minus marks with clamp := clampFlag e.flags.clamp marks.clamp lowered }
    mask := w.mask.getD e.mask }

end Sys2Proof.Machine
end

