-- ==== Sys2Proof/Machine/Forward.lean ====
section
/-!
DEFINITION. The forwarding unit (chapter 10): where a frame goes out, the three queues of a port, the class queues, the
allowance accounts and the horizon, and the choice of the next frame of a port.
-/
namespace Sys2Proof.Machine

/-! ### Queues -/

/-- The port a frame received on `p` is sent out of (R159), if the ring state gives one. -/
def forwardPort (r : RingState) (p : PortId) : Option PortId :=
  match r, p with
  | .ring, p => some (otherPort p)
  | .lineA, .a => some .a
  | .lineB, .b => some .b
  | _, _ => none

/-- The own-send port (R165). -/
def ownSendPort : RingState → Option PortId
  | .ring => some .b
  | .lineB => some .b
  | .lineA => some .a
  | .isolated => none

/-- The bytes a port's transit FIFO holds (R164): a transit frame keeps its place until its transmission ends. -/
def FibrePort.transitBytes (p : FibrePort) : Nat :=
  (p.transit.map Frame.length).sum + (match p.sending with
    | some x => if x.transit then x.frame.length else 0
    | none => 0)

/-- A frame placed in the trip queue of a port (R164). -/
def FibrePort.pushTrip (p : FibrePort) (f : Frame) : FibrePort :=
  if p.trips.length < 8 then { p with trips := p.trips ++ [f] }
  else { p with counters := { p.counters with tripDropped := bump p.counters.tripDropped } }

/-- A frame placed in the cycle queue of a port (R164). -/
def FibrePort.pushCycle (p : FibrePort) (f : Frame) : FibrePort :=
  if p.cycles.length < 2 then { p with cycles := p.cycles ++ [f] }
  else { p with counters := { p.counters with cycleDropped := bump p.counters.cycleDropped } }

/-- A frame placed in the transit FIFO of a port (R164). -/
def FibrePort.pushTransit (p : FibrePort) (f : Frame) : FibrePort :=
  if p.transitBytes + f.length ≤ 16384 then { p with transit := p.transit ++ [f] }
  else { p with counters := { p.counters with transitDropped := bump p.counters.transitDropped } }

/-- A frame placed in the queue of its kind (R159). -/
def FibrePort.push (p : FibrePort) (f : Frame) : FibrePort :=
  match f.kind with
  | .trip => p.pushTrip f
  | .cycle => p.pushCycle f
  | _ => p.pushTransit f

/-- A received frame forwarded (R157, R159): out of the port the ring state gives, its hop budget lowered. -/
def forwardFrame (s : State) (p : PortId) (f : Frame) : State :=
  match forwardPort s.forward.ring p with
  | some q => s.setPort q ((s.port q).push f.lowered)
  | none => s

/-- A frame handed to each fibre port that is UP (R1, R72). -/
def sendBoth (s : State) (f : Frame) : State :=
  let s1 := if s.portA.isUp then s.setPort .a (s.portA.push f) else s
  if s1.portB.isUp then s1.setPort .b (s1.portB.push f) else s1

/-- An own frame placed at the tail of its class queue, or discarded and counted (R165). -/
def ForwardUnit.place (f : ForwardUnit) (c : FrameClass) (e : ClassEntry) : ForwardUnit :=
  match c with
  | .management =>
    if f.management.length < 16 then { f with management := f.management ++ [e] }
    else { f with counters := { f.counters with managementOverflow := bump f.counters.managementOverflow } }
  | .console =>
    if f.console.length < 16 then { f with console := f.console ++ [e] }
    else { f with counters := { f.counters with consoleOverflow := bump f.counters.consoleOverflow } }
  | .image =>
    if f.image.length < 2 then { f with image := f.image ++ [e] }
    else { f with counters := { f.counters with imageOverflow := bump f.counters.imageOverflow } }

/-- An own frame of this node placed in its class queue (R165). -/
def placeFrame (s : State) (c : FrameClass) (owner : Owner) (kind : FrameKind) (dest : Byte) (payload : Payload) : State :=
  s.setForward (s.forward.place c ⟨Frame.own s.addressByte kind dest payload, owner⟩)

/-- A refusal frame to the origin of a refused event (R150, R151). -/
def placeRefusal (s : State) (origin dest : Byte) (code : BitVec 16) (reason : RefuseReason) : State :=
  placeFrame s .console .refusal .refusal origin (.bytes (refusalPayload dest code reason))

/-- The queues of a port that leaves UP are discarded and counted, the frame being sent among them (R167). -/
def FibrePort.flush (p : FibrePort) : FibrePort :=
  let n := p.trips.length + p.cycles.length + p.transit.length + (if p.sending.isSome then 1 else 0)
  { p with
    trips := []
    cycles := []
    transit := []
    sending := none
    counters := { p.counters with portFlushed := bumpBy p.counters.portFlushed n } }

/-- The queues of a port as a RING RESTART leaves them: emptied without a count, the frame being sent kept (R171). -/
def FibrePort.emptied (p : FibrePort) : FibrePort := { p with trips := [], cycles := [], transit := [] }

/-- The queues of the forwarding unit emptied by a RING RESTART (R171). -/
def flushQueues (s : State) : State :=
  { s with
    portA := s.portA.emptied
    portB := s.portB.emptied
    forward := { s.forward with management := [], console := [], image := [] } }

/-! ### Allowance and horizon (R168, R169) -/

/-- The accounts renewed at a cycle event, with the ring rate and working period of the cycle unit, and the horizon
2 µs before its next expected arrival (R168, R169). -/
def ForwardUnit.renew (f : ForwardUnit) (r : Rate) (p : Period) (expected : Time) : ForwardUnit :=
  { f with
    managementUsed := 0
    consoleUsed := 0
    sharedUsed := 0
    allowanceEff := min f.allowance (r.halfBytes p)
    consoleCapEff := f.consoleCap
    horizon := expected - 2000
    horizonHeld := false
    renewals := f.renewals + 1 }

/-- A frame fits the accounts its class is charged to (R168). -/
def ForwardUnit.fits (f : ForwardUnit) (c : FrameClass) (n : Nat) : Bool :=
  match c with
  | .management => f.managementUsed + n ≤ 2048
  | .console => f.consoleUsed + n ≤ f.consoleCapEff && f.sharedUsed + n ≤ f.allowanceEff
  | .image => f.sharedUsed + n ≤ f.allowanceEff

/-- A started frame charged to its accounts (R166, R168). -/
def ForwardUnit.charge (f : ForwardUnit) (c : FrameClass) (n : Nat) : ForwardUnit :=
  match c with
  | .management => { f with managementUsed := f.managementUsed + n }
  | .console => { f with consoleUsed := f.consoleUsed + n, sharedUsed := f.sharedUsed + n }
  | .image => { f with sharedUsed := f.sharedUsed + n }

/-- The queue of a class. -/
def ForwardUnit.classQueue (f : ForwardUnit) : FrameClass → List ClassEntry
  | .management => f.management
  | .console => f.console
  | .image => f.image

/-- The forwarding unit with the head of a class queue removed. -/
def ForwardUnit.dropHead (f : ForwardUnit) : FrameClass → ForwardUnit
  | .management => { f with management := f.management.tail }
  | .console => { f with console := f.console.tail }
  | .image => { f with image := f.image.tail }

/-- A class head held back by the horizon and by nothing else is counted, once per cycle interval (R169). -/
def ForwardUnit.holdBack (f : ForwardUnit) : ForwardUnit :=
  if f.horizonHeld then f
  else { f with horizonHeld := true, counters := { f.counters with horizonHold := bump f.counters.horizonHold } }

/-- What the choice of a class frame finds (R166). -/
inductive ClassChoice where
  /-- no class frame may start -/
  | nothing (f : ForwardUnit)
  /-- this frame starts: it is removed from its queue and charged -/
  | start (e : ClassEntry) (f : ForwardUnit)
  deriving DecidableEq, Repr

/-- The head of one class queue tried (R166, R168, R169) at the instant `now` for a port of rate `r`; if it may not
start, `next` tries the lower classes. -/
def ForwardUnit.tryClass (f : ForwardUnit) (now : Time) (r : Rate) (c : FrameClass)
    (next : ForwardUnit → ClassChoice) : ClassChoice :=
  match f.classQueue c with
  | [] => next f
  | e :: _ =>
    if f.fits c e.frame.length then
      if now + e.frame.time r ≤ f.horizon then .start e ((f.dropHead c).charge c e.frame.length)
      else next f.holdBack
    else next f

/-- The choice among the three class queues, in the order of R166. -/
def ForwardUnit.chooseClass (f : ForwardUnit) (now : Time) (r : Rate) : ClassChoice :=
  f.tryClass now r .management fun f1 =>
    f1.tryClass now r .console fun f2 =>
      f2.tryClass now r .image fun f3 => .nothing f3

/-- The frame of this class entry is the answer to an executed NODE RESET. -/
def ClassEntry.closing (e : ClassEntry) : Bool := e.owner == .answer true

/-- When a frame chosen at `now` comes onto the line of a port that is UP: at once, or behind the identity record that the port sends on
entering UP (R187). -/
def FibrePort.lineFree (p : FibrePort) (now : Time) : Time :=
  max now (match p.link.identity with
    | some t => t + identityTime p.link.rate
    | none => 0)

/-- A frame chosen for a port at the instant `now` and put on its line. -/
def FibrePort.start (p : FibrePort) (now : Time) (f : Frame) (transit closing : Bool) : FibrePort :=
  { p with sending := some ⟨f, p.lineFree now + f.time p.link.rate, transit, closing⟩ }

end Sys2Proof.Machine
end

