-- ==== Sys2Proof/Machine/Trip.lean ====
section
/-!
DEFINITION. The trip unit (chapters 4 and 5): the trip program and its commit, the own-raised word, held bits, blanking
and the trip view, the action table, trip frames, and the trip reset.
-/
namespace Sys2Proof.Machine

/-! ### The trip program (R62 to R70) -/

/-- The used terms of a program (R62). -/
def Program.used (p : Program) : List Term := p.terms.list.take p.length

/-- The value a term reads (R65). -/
def Term.value (t : Term) (sources : BitVec 64) : Bool := sources.getLsbD t.source != t.negate

/-- A term's value combined with the accumulator (R65). -/
def TermOp.combine (op : TermOp) (acc v : Bool) : Bool :=
  match op with
  | .load => v
  | .and => acc && v
  | .or => acc || v
  | .xor => acc != v

/-- The targets of the true rules among the terms, `acc` being the accumulator of the rule in progress (R65, R66). -/
def raisedBy (sources : BitVec 64) : List Term → Bool → Marks
  | [], _ => 0
  | t :: rest, acc =>
    let v := TermOp.combine t.op acc (t.value sources)
    if t.last then
      (match t.target with
        | some c => if v then BitVec.twoPow 32 c else 0
        | none => 0) ||| raisedBy sources rest false
    else raisedBy sources rest v

/-- The channels an evaluation of a program raises (R66). -/
def Program.raised (p : Program) (sources : BitVec 64) : Marks := raisedBy sources p.used false

/-- A term fails a check of R68; `first` says that it begins a rule and `final` that it is term n - 1. -/
def Term.fails (t : Term) (first final : Bool) : Bool :=
  63 < t.source || (first && t.op != .load) || (!first && t.op == .load) || (t.last && t.target.isNone) || (final && !t.last)

/-- The index of the first used term that fails a check of R68. -/
def firstFailing : List Term → Bool → Nat → Option Nat
  | [], _, _ => none
  | t :: rest, first, i => if t.fails first rest.isEmpty then some i else firstFailing rest t.last (i + 1)

/-- The target of the rule that the terms begin with (R65). -/
def ruleTarget : List Term → Option Nat
  | [] => none
  | t :: rest => if t.last then t.target else ruleTarget rest

/-- The edges of the channel dependency graph with the index of the term of each (R69): term, from, to. -/
def channelEdges : List Term → Nat → List (Nat × Nat × Nat)
  | [], _ => []
  | t :: rest, i =>
    match ruleTarget (t :: rest) with
    | some d => if 32 ≤ t.source && t.source ≤ 63 then (i, t.source - 32, d) :: channelEdges rest (i + 1)
        else channelEdges rest (i + 1)
    | none => channelEdges rest (i + 1)

/-- The channels reached from those in `x` by one more edge. -/
def reachOnce (edges : List (Nat × Nat × Nat)) (x : Marks) : Marks :=
  edges.foldl (fun y e => if x.getLsbD e.2.1 then y ||| BitVec.twoPow 32 e.2.2 else y) x

/-- The channels reached from channel `c` along at most `k` edges. -/
def reach (edges : List (Nat × Nat × Nat)) (c : Nat) : Nat → Marks
  | 0 => BitVec.twoPow 32 c
  | k + 1 => reachOnce edges (reach edges c k)

/-- The lowest index among the terms whose edges lie on a cycle (R69): the edge's end leads back to its beginning. -/
def cycleTerm (edges : List (Nat × Nat × Nat)) : Option Nat :=
  (edges.find? (fun e => (reach edges e.2.2 32).getLsbD e.2.1)).map (·.1)

/-- The term at which a commit of the program is refused, if it is (R68, R69). -/
def Program.refusedAt (p : Program) : Option Nat :=
  match firstFailing p.used true 0 with
  | some i => some i
  | none => cycleTerm (channelEdges p.used 0)

/-- The active program after a successful commit: the used terms, and the content of R63 behind them (R70). -/
def Program.committed (p : Program) : Program :=
  { length := p.length, terms := p.terms.mapIdx (fun i t => if i < p.length then t else {}) }

/-! ### The trip view (R83 to R87) -/

/-- The held channels (R83). -/
def TripUnit.heldMarks (t : TripUnit) : Marks := marksWhere 32 (fun c => (t.held.getD c none).isSome)

/-- The blanked channels (R76). -/
def TripUnit.blanked (t : TripUnit) : Marks := marksWhere 32 (fun c => 0 < t.blank.getD c 0)

/-- The trip view that the contributions make (R86). -/
def TripUnit.formed (t : TripUnit) : Marks := t.own ||| t.heldMarks ||| ((t.total ||| t.upstream) &&& ~~~t.blanked)

/-- Group `g` gains an assignment between two action tables and views (R89): from a channel that did not give it one
before, or by a change of its kind from AXIS_STOP to TORQUE_OFF. -/
def gains (oldA : Table Action 32) (oldV : Marks) (newA : Table Action 32) (newV : Marks) (g : Nat) : Bool :=
  (List.range 32).any fun c =>
    assignsStop newA newV c g
      && (!assignsStop oldA oldV c g
        || ((oldA.getD c {}).kind == .axisStop && (newA.getD c {}).kind == .torqueOff))

/-- One report of the groups that gained, with the strongest assignment of each (R40, R89). -/
def reportGroups (s : State) (gs : List Nat) : State :=
  let axis := gs.foldl (fun u g => u.groupAction g (strongest s.trip.actions s.trip.view g)) s.axis
  let t := { s.trip with counters := { s.trip.counters with groupAction := bumpBy s.trip.counters.groupAction gs.length } }
  (s.setAxis axis).setTrip t

/-- The groups that gained. -/
def gainedGroups (oldA : Table Action 32) (oldV : Marks) (newA : Table Action 32) (newV : Marks) : List Nat :=
  (List.range 4).filter (gains oldA oldV newA newV)

/-- The trip view formed anew and its change handed on (R86, R87): the outputs follow, groups that gain an assignment
are reported, and tile 252 is written. (The change of sources 32 to 63 is handed when the command ends.) -/
def formView (s : State) : State :=
  let v := s.trip.formed
  let s1 :=
    if v = s.trip.view then s
    else
      reportGroups (s.setTrip { s.trip with view := v, outputs := outputsOf s.trip.actions v })
        (gainedGroups s.trip.actions s.trip.view s.trip.actions v)
  showTrips s1

/-! ### Evaluation (R66, R71 to R74) -/

/-- The trip unit after an evaluation: the targets of true rules raised, and the trip sequence and the trip frame
counter, when channels were gained at a node with an address (R72, R73). -/
def TripUnit.evaluated (t : TripUnit) (addressed : Bool) : TripUnit :=
  let own := t.own ||| t.active.raised t.sources
  if own = t.own then t
  else if addressed then
    { t with own := own, seq := t.seq + 1, counters := { t.counters with tripFrame := bump t.counters.tripFrame } }
  else { t with own := own }

/-- One evaluation of the active program, the trip frame it sends, and the view formed from the own-raised word it
leaves (R66, R72, R74). -/
def evaluate (s : State) : State :=
  let s1 := s.setTrip (s.trip.evaluated s.hasAddress)
  let s2 :=
    if s1.trip.own != s.trip.own && s.hasAddress then
      sendBoth s1 (Frame.own s.addressByte .trip 0 (.bytes (tripPayload s1.trip.seq s1.trip.own)))
    else s1
  formView s2

/-- The source set after a change is taken (R67). -/
def SourceChange.apply (c : SourceChange) (x : BitVec 64) : BitVec 64 := (x &&& ~~~c.mask) ||| (c.value &&& c.mask)

/-- The change at place `k` can be taken before those ahead of it: it exists and none of them is of one of its
sources. -/
def canTake (l : List SourceChange) (k : Nat) : Bool :=
  match l[k]? with
  | some c => (l.take k).all (fun d => d.mask &&& c.mask == 0)
  | none => false

/-- The place of the change the trip unit takes next, `pick` being the order in which the changes reach it (R67). -/
def takenChange (l : List SourceChange) (pick : Nat) : Nat := if canTake l pick then pick else 0

/-- One handed change taken and evaluated (R66, R67), with the values it carried. A change that was undone before it is taken still waits
and is taken, and so is one of the view's sources that a TRIP RESET has overtaken (DESIGN CHOICE, assumption 79). -/
def takeChange (s : State) (pick : Nat) : State :=
  let k := takenChange s.trip.changes pick
  match s.trip.changes[k]? with
  | some c =>
    evaluate (s.setTrip { s.trip with sources := c.apply s.trip.sources, changes := s.trip.changes.eraseIdx k })
  | none => s

/-! ### Trip frames, held bits and the cycle event (R80 to R85) -/

/-- The frame is accepted (R81): the entry takes its sequence and its word sets held bits with age 0 (R83). -/
def TripUnit.accepted (t : TripUnit) (origin : Nat) (seq : Byte) (word : Marks) : TripUnit :=
  { t with
    dedupe := t.dedupe.set (origin - 1) (some seq)
    held := t.held.mapIdx (fun c h => if word.getLsbD c then some 0 else h)
    counters := { t.counters with frameAccepted := bump t.counters.frameAccepted } }

/-- A consumed trip frame taken by the trip unit (R80, R81, R83). -/
def TripUnit.acceptFrame (t : TripUnit) (origin : Nat) (seq : Byte) (word : Marks) : TripUnit :=
  if origin = 0 || 63 ≤ origin then { t with counters := { t.counters with badOrigin := bump t.counters.badOrigin } }
  else
    match t.dedupe.getD (origin - 1) none with
    | some last =>
      if newer seq last then t.accepted origin seq word
      else { t with counters := { t.counters with duplicate := bump t.counters.duplicate } }
    | none => t.accepted origin seq word

/-- Steps 2 and 3 of R84: a received trip total and upstream word taken, and the held bits the total confirms dropped. -/
def TripUnit.takeTotals (t : TripUnit) (total upstream : Marks) : TripUnit :=
  let confirmed (c : Nat) (h : Option Nat) : Bool := h.isSome && total.getLsbD c && !(0 < t.blank.getD c 0)
  { t with
    total := total
    upstream := upstream
    held := t.held.mapIdx (fun c h => if confirmed c h then none else h)
    counters := { t.counters with
      heldConfirmed := bumpBy t.counters.heldConfirmed (countBelow 32 fun c => confirmed c (t.held.getD c none)) } }

/-- Step 4 of R84: every remaining held bit ages, and one that reaches age 3 is dropped and counted. -/
def TripUnit.age (t : TripUnit) : TripUnit :=
  { t with
    held := t.held.map (fun h => match h with
      | some a => if a + 1 < 3 then some (a + 1) else none
      | none => none)
    counters := { t.counters with
      unconfirmed := bumpBy t.counters.unconfirmed
        (countBelow 32 fun c => (t.held.getD c none).any (fun a => 3 ≤ a + 1)) } }

/-- Step 1 of R84: the blanking timers run down (R76). -/
def TripUnit.blankTick (t : TripUnit) : TripUnit := { t with blank := t.blank.map (fun n => n - 1) }

/-- The trip unit's part of a cycle event (R84): `received` holds the trip total and the upstream word of a real one. The blanking
timers run down first, so the total of the second cycle event after a trip reset already counts, as R85 says. R93's events meet here,
and their outcome follows from the rules of each (R93); its third bullet tells of the totals that are taken while the channel is blanked
(DEDUCED, assumption 49). -/
def TripUnit.cycleEvent (t : TripUnit) (received : Option (Marks × Marks)) : TripUnit :=
  match received with
  | some (total, upstream) => (t.blankTick.takeTotals total upstream).age
  | none => t.blankTick

/-- The trip unit's part of a cycle event, and the view formed at its end (R84). -/
def tripCycleEvent (s : State) (received : Option (Marks × Marks)) : State :=
  formView (s.setTrip (s.trip.cycleEvent received))

/-- A late copy taken by the trip unit (R10, R84): steps 2 and 3 only. -/
def tripLateCopy (s : State) (total upstream : Marks) : State := formView (s.setTrip (s.trip.takeTotals total upstream))

/-- A consumed trip frame handed to the trip unit (R80). -/
def takeTripFrame (s : State) (f : Frame) : State :=
  formView (s.setTrip (s.trip.acceptFrame f.origin.toNat (byteAt f.data 0) (BitVec.ofNat 32 (fieldAt f.data 1 4))))

/-- What a RING RESTART does to the trip unit (R94). -/
def tripRestart (s : State) : State :=
  formView (s.setTrip { s.trip with dedupe := Table.replicate 62 none, held := Table.replicate 32 none })

/-! ### TRIP RESET and TRIP COMMIT (R70, R75 to R77) -/

/-- Steps 1 to 3 of R75 for the channels of a mask. -/
def TripUnit.resetChannels (t : TripUnit) (mask : Marks) : TripUnit :=
  { t with
    own := t.own &&& ~~~mask
    held := t.held.mapIdx (fun c h => if mask.getLsbD c then none else h)
    blank := t.blank.mapIdx (fun c n => if mask.getLsbD c then 2 else n)
    counters := { t.counters with tripReset := bump t.counters.tripReset } }

/-- Sources 32 to 63 take the values of the view (R75). -/
def TripUnit.viewSources (t : TripUnit) : TripUnit :=
  { t with sources := (t.view ++ (t.sources.setWidth 32 : BitVec 32) : BitVec 64) }

/-- A trip reset up to its evaluation: steps 1 to 3, the view formed anew, sources 32 to 63 following it (R75). -/
def resetView (s : State) (mask : Marks) : State :=
  let s1 := formView (s.setTrip (s.trip.resetChannels mask))
  s1.setTrip s1.trip.viewSources

/-- The execution of a TRIP RESET (R75). -/
def tripReset (s : State) (mask : Marks) : State := evaluate (resetView s mask)

/-- The execution of a TRIP COMMIT (R68 to R70): the failing term, or the state with the program active and evaluated. -/
def tripCommit (s : State) : Option Nat × State :=
  match s.trip.staging.refusedAt with
  | some i =>
    (some i, s.setTrip { s.trip with counters := { s.trip.counters with commitRefused := bump s.trip.counters.commitRefused } })
  | none =>
    (none, evaluate (s.setTrip { s.trip with
      active := s.trip.staging.committed
      counters := { s.trip.counters with commit := bump s.trip.counters.commit } }))

/-! ### Trip inputs (R60) -/

/-- A level at a trip input pin (R60): a level that differs from the filtered one starts the hold timer, and a return
before the expiry stops it as a glitch. -/
def TripUnit.pinLevel (t : TripUnit) (pin : Nat) (high : Bool) (now : Time) : TripUnit :=
  if t.pins.getLsbD pin = high then t
  else
    let t1 := { t with pins := if high then t.pins ||| BitVec.twoPow 8 pin else t.pins &&& ~~~BitVec.twoPow 8 pin }
    if (!high) != t.filtered.getLsbD pin then { t1 with hold := t.hold.set pin (some (now + 20000)) }
    else if (t.hold.getD pin none).isSome then
      { t1 with hold := t.hold.set pin none, counters := { t.counters with glitch := bump t.counters.glitch } }
    else t1

/-- The hold timer of a pin has run out: the filtered level takes the pin's level (R60). -/
def TripUnit.holdExpired (t : TripUnit) (pin : Nat) : TripUnit :=
  { t with
    filtered := if t.pins.getLsbD pin then t.filtered &&& ~~~BitVec.twoPow 8 pin else t.filtered ||| BitVec.twoPow 8 pin
    hold := t.hold.set pin none }

/-! ### The WRITE of a TERM, PROGRAM LENGTH or ACTION item (R64, R88) -/

/-- The checks of R64 on the fields of a staging term. -/
def PlainWrite.termInRange (w : PlainWrite) : Bool :=
  within w.source 0 127 && w.op != some none && (w.target.all fun x => within x 0 31)

/-- A staging term after an accepted WRITE (R64). -/
def Term.applyWrite (t : Term) (w : PlainWrite) : Term :=
  { source := w.source.getD t.source
    negate := w.negate.getD t.negate
    op := (w.op.getD (some t.op)).getD t.op
    last := w.last.getD t.last
    target := w.target.getD t.target }

/-- An action entry with the named fields changed. -/
def Action.applyWrite (a : Action) (w : ActionWrite) : Action :=
  { kind := (w.kind.getD (some a.kind)).getD a.kind
    groups := w.groups.getD a.groups
    pins := w.pins.getD a.pins
    masterStop := w.masterStop.getD a.masterStop }

/-- The answer status of a WRITE of an ACTION item (R88). -/
def Action.checkWrite (a : Action) (w : ActionWrite) : Status :=
  if w.kind = some none then .range
  else if (a.applyWrite w).kind = .syncStop && !(a.applyWrite w).masterStop then .range
  else .ok

/-- An accepted WRITE of action entry `i` (R88, R89): the outputs take their levels at once, and an assignment it adds is
reported. -/
def writeAction (s : State) (i : Nat) (w : ActionWrite) : State :=
  let actions := s.trip.actions.modify i (fun a => a.applyWrite w)
  reportGroups (s.setTrip { s.trip with actions := actions, outputs := outputsOf actions s.trip.view })
    (gainedGroups s.trip.actions s.trip.view actions s.trip.view)

end Sys2Proof.Machine
end

