-- ==== Sys2Proof/Machine/Drive.lean ====
section
/-!
DEFINITION. The drive link controller (chapter 3): the pending output instant, the poll, the judgement of answers, and
misses.
-/
namespace Sys2Proof.Machine

/-- A setpoint record of 11 bytes occupies the line for 4.4 µs (chapter 3.1). -/
def setpointTime : Time := 4400

/-- The answer window is open for 10 µs (R50). -/
def windowTime : Time := 10000

/-- A pending output instant with its values, replacing one that has not yet come (R48). -/
def DriveLink.setNext (d : DriveLink) (x : PendingPoll) : DriveLink :=
  { d with
    next := some x
    counters := if d.next.isSome then { d.counters with instantReplaced := bump d.counters.instantReplaced } else d.counters }

/-- The axis is in OFF, or has entered OFF since its values were handed over: it is not polled with them (R26, R35, R49), and a
record of it is discarded (R57). -/
def Handed.isOff (h : Handed) (u : AxisUnit) : Bool :=
  (u.entries.getD h.axis {}).state == .off || (u.entries.getD h.axis {}).offs != h.offs

/-- The poll goes on with the next axis of the list that has not entered OFF, its record starting at `now`; with none left the
poll ends (R49, R50). -/
def pollNext (u : AxisUnit) (tag : Byte) (now : Time) : List Handed → Option Poll
  | [] => none
  | h :: rest =>
    if h.isOff u then pollNext u tag now rest
    else some ⟨tag, h, .sending (now + setpointTime), rest⟩

/-- An axis after a miss (R55). -/
def AxisEntry.missed (e : AxisEntry) : AxisEntry :=
  let n := if e.miss < 3 then e.miss + 1 else e.miss
  { e with miss := n, flags := if 3 ≤ n then { e.flags with silent := true } else e.flags }

/-- The miss is the first that leaves the miss count at 3 (R55). -/
def AxisEntry.missReaches (e : AxisEntry) : Bool := e.miss == 2

/-- A miss of an axis (R55). -/
def countMiss (s : State) (axis : Nat) : State :=
  let first := (s.axis.entries.getD axis {}).missReaches
  let s1 := s.setAxis { s.axis with entries := s.axis.entries.modify axis AxisEntry.missed }
  if first then s1.setDrive { s1.drive with counters := { s1.drive.counters with driveSilent := true } } else s1

/-- The misses of a poll that is cut off (R52): the axis being polled, and every axis of the rest that has not entered OFF. -/
def abandon (s : State) (p : Poll) : State :=
  let missing := p.current.axis :: ((p.rest.filter (fun h => !h.isOff s.axis)).map (·.axis))
  let s1 := missing.foldl countMiss s
  s1.setDrive { s1.drive with
    poll := none
    counters := { s1.drive.counters with
      abandoned := bumpBy s1.drive.counters.abandoned missing.length
      pollOverrun := true } }

/-- The pending output instant arrives (R49, R52): an earlier poll still in progress is cut off, and the poll of the handed
axes that have not entered OFF begins. Its first record starts at the output instant itself, also where a byte of the earlier poll is
then on the line (DESIGN CHOICE, assumption 78). -/
def beginPoll (s : State) (x : PendingPoll) : State :=
  let s1 := match s.drive.poll with
    | some p => abandon s p
    | none => s
  s1.setDrive { s1.drive with next := none, poll := pollNext s1.axis x.tag s1.now (x.values.filter fun h => !h.isOff s1.axis) }

/-- The poll goes on after the axis being polled has ended (R50). -/
def continuePoll (s : State) (p : Poll) : State :=
  s.setDrive { s.drive with poll := pollNext s.axis p.tag s.now p.rest }

/-- The answer window of an axis closes with no record completed (R51, R55). -/
def windowClosed (s : State) (p : Poll) : State :=
  let s1 := countMiss s p.current.axis
  continuePoll (s1.setDrive { s1.drive with
    counters := { s1.drive.counters with noAnswer := bump s1.drive.counters.noAnswer } }) p

/-- How a completed record is judged (R51, R57). -/
inductive Judgement where
  | discarded
  | badCrc
  | wrongAddress
  | wrongTag
  | good
  deriving DecidableEq, Repr

/-- The judgement of a record completed in the window of the axis being polled (R51, R57); `off` says that the axis has entered
OFF since it was polled. -/
def judge (off : Bool) (p : Poll) (a : ActualFields) : Judgement :=
  if off then .discarded
  else if !a.crcGood then .badCrc
  else if a.address != p.current.axis then .wrongAddress
  else if a.tag != p.tag then .wrongTag
  else .good

/-- The counters after a miss of a completed record (R51). -/
def DriveCounters.missOf (c : DriveCounters) : Judgement → DriveCounters
  | .badCrc => { c with badCrc := bump c.badCrc }
  | .wrongAddress => { c with wrongAddress := bump c.wrongAddress }
  | .wrongTag => { c with wrongTag := bump c.wrongTag }
  | _ => c

/-- The check of R56 is made: the record was sent with mode ENABLED, the axis follows, stops or has stopped, and it has not been
disabled since its values were handed over, so neither since it was polled nor before an ENGAGE after the hand-over (R57). -/
def followingChecked (e : AxisEntry) (p : Poll) : Bool :=
  p.current.enabled && (e.state == .follow || e.state == .stopping || e.state == .stopped) && e.disables == p.current.disables

/-- The setpoint sent differs from the actual by more than FE (R56). -/
def followingError (e : AxisEntry) (p : Poll) (a : ActualFields) : Bool :=
  followingChecked e p && e.ferrLimit < (p.current.setpoint - a.position).toInt.natAbs

/-- An axis after a good answer (R53, R54, R56). -/
def AxisEntry.answered (e : AxisEntry) (p : Poll) (a : ActualFields) : AxisEntry :=
  { e with
    miss := 0
    lastActual := some a.position
    flags := { e.flags with
      dfault := e.flags.dfault || a.fault
      ferr := e.flags.ferr || followingError e p a } }

/-- The controller after a good answer (R53, R54, R56). -/
def DriveLink.answered (d : DriveLink) (e : AxisEntry) (p : Poll) (a : ActualFields) : DriveLink :=
  { d with
    status := d.status.set p.current.axis (some ⟨a.ready, a.fault⟩)
    counters := { d.counters with
      notReady := if p.current.enabled && !a.ready then bump d.counters.notReady else d.counters.notReady
      driveFault := if a.fault then bump d.counters.driveFault else d.counters.driveFault
      followingError := if followingError e p a then bump d.counters.followingError else d.counters.followingError } }

/-- A record completed in the window of the axis being polled (R50 to R57). -/
def takeAnswer (s : State) (p : Poll) (a : ActualFields) : State :=
  let e := s.axis.entries.getD p.current.axis {}
  match judge (p.current.isOff s.axis) p a with
  | .discarded => continuePoll s p
  | .good =>
    let s1 := s.setAxis { s.axis with entries := s.axis.entries.modify p.current.axis (fun e => e.answered p a) }
    continuePoll (s1.setDrive (s1.drive.answered e p a)) p
  | j =>
    let s1 := countMiss s p.current.axis
    continuePoll (s1.setDrive { s1.drive with counters := s1.drive.counters.missOf j }) p

/-- A record, or part of one, received while no window is open (R47). -/
def strayAnswer (s : State) : State :=
  s.setDrive { s.drive with counters := { s.drive.counters with strayAnswer := bump s.drive.counters.strayAnswer } }

/-- A record on the answer pair (R47): eight bytes complete one; inside a window it is judged, outside one it is stray. A
part of a record inside a window completes nothing. A record that is completed in a window is its answer, and no stray, also where its
first bytes came before the window opened (DESIGN CHOICE, assumption 77). -/
def actualReceived (s : State) (bytes : List Byte) : State :=
  match s.drive.poll with
  | some p =>
    match p.phase with
    | .window _ => if bytes.length = 8 then takeAnswer s p (readActual bytes) else s
    | .sending _ => strayAnswer s
  | none => strayAnswer s

end Sys2Proof.Machine
end

