-- ==== Sys2Proof/Machine/Mark.lean ====
section
/-!
DEFINITION. The mark search unit (chapter 7): the classing and search of a line, a find and its correction, the closing of
a window, and the WRITE of a MARK item.
-/
namespace Sys2Proof.Machine

/-- The window distance of a tag: its phase minus E, modulo 2^24, in -8,388,608 to 8,388,607 (R118). -/
def windowDistance (tag : ExtPos) (e : Nat) : Int :=
  (BitVec.ofNat 24 (extPhase tag) - BitVec.ofNat 24 e).toInt

/-- The dark pixels of a line (R120): `pixels` are the values the camera filled, up to the first unfilled position. -/
def MarkRecord.darkCount (r : MarkRecord) (pixels : List Nat) : Nat :=
  (((pixels.take (r.last + 1)).drop r.first).filter (fun v => v < r.dark)).length

/-- The correction of an error (R121): minus e times k over 256, to the nearest whole number, halves away from zero. -/
def correctionFor (e : Int) (k : Nat) : Int :=
  let m : Int := (((e.natAbs * k + 128) / 256 : Nat) : Int)
  if e < 0 then m else -m

/-- A mark found at distance `d` (R121). -/
def MarkEntry.find (m : MarkEntry) (d : Int) (dark : Nat) : MarkEntry :=
  { m with
    search := { m.search with
      found := true
      lastError := some d
      lastCorrection := some (correctionFor d m.record.gain)
      lastDark := some dark
      miss := 0
      status := .locked }
    counters := { m.counters with marksFound := bump m.counters.marksFound } }

/-- A window missed (R123, R124). -/
def MarkEntry.missed (m : MarkEntry) : MarkEntry :=
  let n := if m.search.miss < 4 then m.search.miss + 1 else m.search.miss
  { m with
    search := { m.search with
      pending := false
      found := false
      miss := n
      status := if 4 ≤ n then .lost else m.search.status }
    counters := { m.counters with
      windowMiss := bump m.counters.windowMiss
      markLost := m.counters.markLost || (4 ≤ n && m.search.status != .lost) } }

/-- A line after the window (R123). -/
def MarkEntry.after (m : MarkEntry) : MarkEntry :=
  if m.search.pending && !m.search.found then m.missed
  else { m with search := { m.search with pending := false, found := false } }

/-- A line with the given tag and pixels taken by an enabled record (R118 to R121, R123), with the correction of a find. -/
def MarkEntry.take (m : MarkEntry) (tag : ExtPos) (pixels : List Nat) : MarkEntry × Option Int :=
  let d := windowDistance tag m.record.phase
  let m1 := { m with counters := { m.counters with linesSearched := bump m.counters.linesSearched } }
  if d < -(m.record.window : Int) then ({ m1 with search := { m1.search with pending := true } }, none)
  else if (m.record.window : Int) < d then (m1.after, none)
  else if m.search.found then (m1, none)
  else
    let n := m.record.darkCount pixels
    if m.record.minimum ≤ n then (m1.find d n, some (correctionFor d m.record.gain))
    else ({ m1 with search := { m1.search with lastDark := some n } }, none)

/-- A non-zero correction sent to the ring, or handed to the node's own axis unit (R122). -/
def sendCorrection (s : State) (r : MarkRecord) (c : Int) : State :=
  if s.hasAddress && r.node = s.address then s.setAxis (s.axis.correct r.axis c)
  else placeFrame s .management .correction .correction (BitVec.ofNat 8 r.node) (.bytes (correctionPayload r.axis c))

/-- A completed line handed to the mark search unit (R118, R122). -/
def markLine (s : State) (i : Nat) (tag : ExtPos) (pixels : List Nat) : State :=
  match s.mark.entries.get? i with
  | some m =>
    if !m.record.enable then s
    else
      let r := m.take tag pixels
      match r.2 with
      | some c =>
        if c = 0 then s.setMark ⟨s.mark.entries.set i r.1⟩
        else
          let m1 := { r.1 with counters := { r.1.counters with correctionsSent := bump r.1.counters.correctionsSent } }
          sendCorrection (s.setMark ⟨s.mark.entries.set i m1⟩) m.record c
      | none => s.setMark ⟨s.mark.entries.set i r.1⟩
  | none => s

/-- What a restart of the stream context does to its search state (R117). -/
def MarkEntry.restarted (m : MarkEntry) : MarkEntry :=
  { m with search := { m.search with pending := false, found := false } }

/-- A mark record with the named fields changed. -/
def MarkRecord.applyWrite (r : MarkRecord) (w : MarkWrite) : MarkRecord :=
  { enable := w.enable.getD r.enable
    node := w.node.getD r.node
    axis := w.axis.getD r.axis
    phase := w.phase.getD r.phase
    window := w.window.getD r.window
    first := w.first.getD r.first
    last := w.last.getD r.last
    dark := w.dark.getD r.dark
    minimum := w.minimum.getD r.minimum
    gain := w.gain.getD r.gain }

/-- The answer status of a WRITE of a MARK item (R116). One that names a field of the search state is STATE, behind the checks that give
RANGE (DESIGN CHOICE, assumption 82). -/
def MarkRecord.checkWrite (r : MarkRecord) (w : MarkWrite) : Status :=
  if !(within w.node 1 63 && within w.axis 0 15 && within w.phase 0 16777215 && within w.window 1 1048576
      && within w.first 0 8191 && within w.last 0 8191 && within w.dark 0 65535 && within w.minimum 1 8192
      && within w.gain 0 255) then .range
  else if (r.applyWrite w).last < (r.applyWrite w).first then .range
  else if (r.applyWrite w).enable && (r.applyWrite w).node = 63 then .range
  else if w.readOnly then .state
  else .ok

/-- A mark entry after an accepted WRITE (R116). -/
def MarkEntry.applyWrite (m : MarkEntry) (w : MarkWrite) : MarkEntry :=
  let r := m.record.applyWrite w
  { m with
    record := r
    search :=
      if r.enable != m.record.enable then {}
      else if w.phase.isSome || w.window.isSome then { m.search with pending := false, found := false }
      else m.search }

end Sys2Proof.Machine
end

