-- ==== Sys2Proof/Machine/Image.lean ====
section
/-!
DEFINITION. The source side of the image unit (chapter 6): regions and slots, the trigger generator, capture through the
taps, and the segmenter.
-/
namespace Sys2Proof.Machine

/-! ### Contexts and slots (R97, R102) -/

/-- A stream context. -/
def ImageUnit.ctx (u : ImageUnit) (i : Nat) : StreamContext := u.contexts.getD i {}

/-- The image unit with a stream context replaced. -/
def ImageUnit.setCtx (u : ImageUnit) (i : Nat) (c : StreamContext) : ImageUnit := { u with contexts := u.contexts.set i c }

/-- The state with a stream context replaced. -/
def setCtx (s : State) (i : Nat) (c : StreamContext) : State := s.setImage (s.image.setCtx i c)

/-- The address of slot `k` of a context's region: its line header stands there (chapter 6.1). -/
def StreamRecord.slotAddress (r : StreamRecord) (k : Nat) : Nat := (r.base + k * r.slotSize) * 1024

/-- The pixel bytes of a whole line. -/
def StreamRecord.lineBytes (r : StreamRecord) : Nat := r.length * r.pixel

/-- The slot after slot `k`, wrapping to 0 after the last (R102). -/
def StreamRecord.nextSlot (r : StreamRecord) (k : Nat) : Nat := if k + 1 < r.capacity then k + 1 else 0

/-- The line at the write index becomes held (R102). -/
def StreamContext.hold (c : StreamContext) : StreamContext :=
  { c with work := { c.work with held := c.work.held + 1, write := c.record.nextSlot c.work.write } }

/-- The oldest held line is freed (R102). -/
def StreamContext.free (c : StreamContext) : StreamContext :=
  { c with work := { c.work with held := c.work.held - 1, read := c.record.nextSlot c.work.read, segmentsDone := 0 } }

/-- The header of the oldest held line. -/
def ImageUnit.oldestHeader (u : ImageUnit) (c : StreamContext) : List Byte :=
  u.memory.bytes (c.record.slotAddress c.work.read) 16

/-! ### The trigger generator (R103, R104) -/

/-- The first grid number at or above phase `lo`. -/
def gridFirst (origin pitch lo : Nat) : Nat := if lo ≤ origin then 0 else (lo - origin + pitch - 1) / pitch

/-- How many grid points have a phase from `lo` to `hi`. -/
def gridCount (origin pitch lo hi : Nat) : Nat :=
  if hi < origin || hi < lo then 0 else (hi - origin) / pitch + 1 - gridFirst origin pitch lo

/-- The first `n` phases of the grid from `lo` on. -/
def gridPhases (origin pitch lo n : Nat) : List Nat :=
  (List.range n).map (fun j => origin + (gridFirst origin pitch lo + j) * pitch)

/-- The trigger points that a positive step from `before` passes, the first 32 of them in order of position, and how many
there are in all (R103). -/
def triggerPoints (before : ExtPos) (step origin pitch : Nat) : List ExtPos × Nat :=
  let phase := extPhase before
  let here := before - BitVec.ofNat 40 phase
  let n1 := gridCount origin pitch (phase + 1) (min (phase + step) 16777215)
  let n2 := if phase + step < 16777216 then 0 else gridCount origin pitch 0 (min (phase + step - 16777216) 16777215)
  let take1 := min n1 32
  ((gridPhases origin pitch (phase + 1) take1).map (fun x => here + BitVec.ofNat 40 x)
    ++ (gridPhases origin pitch 0 (min n2 (32 - take1))).map (fun x => here + BitVec.ofNat 40 (16777216 + x)), n1 + n2)

/-- The pulse instant of a point (R104): the fraction of the step at which it lies, of the working period, rounded down to
20 ns. -/
def pulseInstant (event : Time) (period : Time) (before point : ExtPos) (step : Nat) : Time :=
  event + (extDiff before point).toNat * period / step / 20 * 20

/-- The triggers a cycle event selects and schedules for a context (R103, R104). -/
def StreamContext.select (c : StreamContext) (event period : Time) (before : ExtPos) (step : Int) : StreamContext :=
  if step ≤ 0 then c
  else
    let r := triggerPoints before step.toNat c.record.origin c.record.pitch
    { c with
      work := { c.work with triggers := r.1.map (fun p => ⟨p, pulseInstant event period before p step.toNat⟩) }
      counters := { c.counters with triggerOverrun := bumpBy c.counters.triggerOverrun (r.2 - r.1.length) } }

/-- A trigger pulsed at the instant `now` (R105): it takes a line number, and starts a capture unless the region is full or
a capture is in progress. The header in the slot at the write index takes the number and the tag, and the context's trigger
output is pulsed (assumption 48); a skipped number sends no pulse. -/
def ImageUnit.pulse (u : ImageUnit) (i : Nat) (point : ExtPos) (now period : Time) : ImageUnit :=
  let c := u.ctx i
  let c1 := { c with work := { c.work with nextLine := c.work.nextLine + 1 } }
  if c.work.held = c.record.capacity then
    u.setCtx i { c1 with counters := { c.counters with captureOverrun := bump c.counters.captureOverrun } }
  else if c.work.capture.isSome then
    u.setCtx i { c1 with counters := { c.counters with triggerBusy := bump c.counters.triggerBusy } }
  else
    { u.setCtx i { c1 with work := { c1.work with capture := some ⟨c.work.nextLine, point, now + period, false⟩ } } with
      memory := u.memory.write (c.record.slotAddress c.work.write)
        (beBytes 2 c.work.nextLine.toNat ++ beBytes 5 point.toNat)
      trigger := u.trigger.set i (some now) }

/-- The triggers of the previous selection still scheduled at a cycle event are pulsed there, in order of position; one
whose instant lay after the event is counted late (R104). -/
def ImageUnit.pulseLate (u : ImageUnit) (i : Nat) (now period : Time) : List Trigger → ImageUnit
  | [] => u
  | t :: rest =>
    let u1 := u.pulse i t.point now period
    let c := u1.ctx i
    let late := if now < t.instant then bump c.counters.triggerLate else c.counters.triggerLate
    (u1.setCtx i { c with work := { c.work with triggers := rest }, counters := { c.counters with triggerLate := late } }).pulseLate
      i now period rest

/-- The part of one source context in a cycle event (R103, R104): pulses left over, then the new selection. -/
def ImageUnit.triggerEvent (u : ImageUnit) (i : Nat) (now period : Time) (before : ExtPos) (step : Int) : ImageUnit :=
  if (u.ctx i).record.mode = .source then
    let u1 := u.pulseLate i now period (u.ctx i).work.triggers
    u1.setCtx i ((u1.ctx i).select now period before step)
  else u

/-- The trigger generators' part of a cycle event (R12, R103). Contexts 0 and 1 alone can be a SOURCE (R99). -/
def triggerEvents (s : State) (before : ExtPos) (step : Int) : State :=
  let u := s.image.triggerEvent 0 s.now s.cycle.workingPeriod.time before step
  s.setImage (u.triggerEvent 1 s.now s.cycle.workingPeriod.time before step)

/-! ### Capture (R106 to R110) -/

/-- The line-valid input of context `i` is used (R106): line-valid 1 only in SINGLE. -/
def ImageUnit.inputUsed (u : ImageUnit) (i : Nat) : Bool := u.direction == .capture && (i == 0 || u.tap == .single)

/-- A rise of a line-valid input (R106). A rise with no capture waiting is an unrequested line, also where the line is that of a
capture abandoned before it rose, which R100 lets no counter record (DESIGN CHOICE, assumption 50). -/
def ImageUnit.rise (u : ImageUnit) (i : Nat) : ImageUnit :=
  let c := u.ctx i
  let u1 := { u with lineValid := u.lineValid ||| BitVec.twoPow 2 i }
  if u.lineValid.getLsbD i || !u.inputUsed i || c.record.mode != .source then u1
  else
    match c.work.capture with
    | some k =>
      if k.intake then u1
      else u1.setCtx i { c with work := { c.work with capture := some { k with intake := true } } }
    | none => u1.setCtx i { c with counters := { c.counters with unrequestedLine := bump c.counters.unrequestedLine } }

/-- A line-valid input is low. -/
def ImageUnit.fall (u : ImageUnit) (i : Nat) : ImageUnit := { u with lineValid := u.lineValid &&& ~~~BitVec.twoPow 2 i }

/-- The first `n` pixels of a tap, each filled or not. -/
def tapPixels (n : Nat) (tap : List (BitVec 16)) : List (Option (BitVec 16)) :=
  (tap.take n).map some ++ List.replicate (n - tap.length) none

/-- Pixels of the two taps alternating. -/
def interleave : List (Option (BitVec 16)) → List (Option (BitVec 16)) → List (Option (BitVec 16))
  | a :: as, b :: bs => a :: b :: interleave as bs
  | as, [] => as
  | [], bs => bs

/-- The pixel positions of a line as the tap mode fills them (R107). -/
def linePixels (mode : TapMode) (i length : Nat) (tap0 tap1 : List (BitVec 16)) : List (Option (BitVec 16)) :=
  match mode with
  | .single => tapPixels length (if i = 0 then tap0 else tap1)
  | .interleaved => interleave (tapPixels (length / 2) tap0) (tapPixels (length / 2) tap1)
  | .mirrored => tapPixels (length / 2) tap0 ++ (tapPixels (length / 2) tap1).reverse

/-- A tap gave pixels beyond its full count (R109). -/
def lineIsLong (mode : TapMode) (i length : Nat) (tap0 tap1 : List (BitVec 16)) : Bool :=
  match mode with
  | .single => length < (if i = 0 then tap0 else tap1).length
  | _ => length / 2 < tap0.length || length / 2 < tap1.length

/-- The pixels before the first position the camera did not fill. -/
def filledPixels : List (Option (BitVec 16)) → List (BitVec 16)
  | some v :: rest => v :: filledPixels rest
  | _ => []

/-- The value of a pixel as the camera gave it: one byte with pixel size 1 (R108). -/
def pixelValue (size : Nat) (v : BitVec 16) : Nat := if size = 1 then v.toNat % 256 else v.toNat

/-- The stored bytes of a pixel (R108). -/
def pixelBytes (size : Nat) (order : ByteOrder) (v : BitVec 16) : List Byte :=
  if size = 1 then [v.setWidth 8]
  else
    match order with
    | .normal => [v.setWidth 8, (v >>> 8).setWidth 8]
    | .swapped => [(v >>> 8).setWidth 8, v.setWidth 8]

/-- The pixel bytes of a captured line: the positions before the first one the camera did not fill, and zeros in the rest of the
slot, whatever the camera gave beyond that gap (R109, R111; DEDUCED of the tap mode INTERLEAVED, assumption 51). -/
def capturedBytes (size : Nat) (order : ByteOrder) (pixels : List (Option (BitVec 16))) : List Byte :=
  let filled := filledPixels pixels
  (filled ++ List.replicate (pixels.length - filled.length) 0).flatMap (pixelBytes size order)

/-- The line of a capture that completes (R109): its bytes and header stored, the line held and counted. -/
def ImageUnit.finish (u : ImageUnit) (i : Nat) (k : Capture) (tap0 tap1 : List (BitVec 16)) : ImageUnit :=
  let c := u.ctx i
  let r := c.record
  let pixels := linePixels u.tap i r.length tap0 tap1
  let filled := (filledPixels pixels).length
  let reason := if filled = r.length then Reason.complete else .short
  let c1 := { c.hold with
    counters := { c.counters with
      longLine := if lineIsLong u.tap i r.length tap0 tap1 then bump c.counters.longLine else c.counters.longLine
      linesCaptured := bump c.counters.linesCaptured } }
  { u.setCtx i { c1 with work := { c1.work with capture := none } } with
    memory := u.memory.write (r.slotAddress c.work.write)
      (lineHeader k.line k.tag reason (filled * r.pixel) ++ capturedBytes r.pixel r.order pixels) }

/-- The completion of a capture, and the line handed to mark search (R109, R118). -/
def finishCapture (s : State) (i : Nat) (k : Capture) (tap0 tap1 : List (BitVec 16)) : State :=
  let r := (s.image.ctx i).record
  let pixels := filledPixels (linePixels s.image.tap i r.length tap0 tap1)
  markLine (s.setImage (s.image.finish i k tap0 tap1)) i k.tag (pixels.map (pixelValue r.pixel))

/-- The capture limit counted (R110). -/
def countTimeout (s : State) (i : Nat) : State :=
  let c := s.image.ctx i
  setCtx s i { c with counters := { c.counters with captureTimeout := bump c.counters.captureTimeout } }

/-! ### The segmenter (R111, R112) -/

/-- The segments of a line with so many valid bytes (R111). -/
def segmentCount (valid size : Nat) : Nat := if valid = 0 then 1 else (valid + size - 1) / size

/-- A segment of a context waits in the image class queue (R112). -/
def segmentWaiting (f : ForwardUnit) (i : Nat) : Bool := f.image.any (fun e => e.owner == .segment i)

/-- The payload of the next segment of the oldest held line (R111). -/
def ImageUnit.segmentPayload (u : ImageUnit) (i : Nat) : List Byte :=
  let c := u.ctx i
  let r := c.record
  let header := u.oldestHeader c
  let valid := fieldAt header 8 2
  let k := c.work.segmentsDone
  let offset := k * r.segment
  Machine.segmentPayload r.destCtx i (BitVec.ofNat 16 (fieldAt header 0 2)) k offset
    (k + 1 == segmentCount valid r.segment) header
    (u.memory.bytes (r.slotAddress c.work.read + 16 + offset) (min r.segment (valid - offset)))

/-- A source context with a line to segment and no segment waiting places its next one (R112). -/
def placeSegment (s : State) (i : Nat) : State :=
  let c := s.image.ctx i
  if c.record.mode = .source && 0 < c.work.held && !segmentWaiting s.forward i then
    placeFrame s .image (.segment i) .segment (BitVec.ofNat 8 c.record.destNode) (.bytes (s.image.segmentPayload i))
  else s

/-- A segment of a context is handed to a port (R111, R112): after the last one of a line its slot is freed. -/
def segmentHanded (s : State) (i : Nat) : State :=
  let c := s.image.ctx i
  let c1 := { c with
    work := { c.work with segmentsDone := c.work.segmentsDone + 1 }
    counters := { c.counters with segmentsSent := bump c.counters.segmentsSent } }
  let last := segmentCount (fieldAt (s.image.oldestHeader c) 8 2) c.record.segment ≤ c.work.segmentsDone + 1
  setCtx s i (if last then c1.free else c1)

end Sys2Proof.Machine
end

