-- ==== Sys2Proof/Machine/Sink.lean ====
section
/-!
DEFINITION. The sink side of the image unit (chapter 8): reassembly, delivery and its arbiter; and what the two sides
share: restart, the WRITE of a STREAM item, and the image port settings (R98 to R101).
-/
namespace Sys2Proof.Machine

/-! ### Reassembly (R127 to R134)

A context and line memory are changed together; a step of the reassembler takes and gives the pair. -/

/-- Line memory with one of its contexts. -/
structure SinkWork where
  memory : Memory
  ctx : StreamContext
  deriving DecidableEq, Repr

/-- The slot at the write index. -/
def SinkWork.slot (x : SinkWork) : Nat := x.ctx.record.slotAddress x.ctx.work.write

/-- The region is full. -/
def SinkWork.isFull (x : SinkWork) : Bool := x.ctx.record.capacity ≤ x.ctx.work.held

/-- The context with its counters changed. -/
def SinkWork.count (x : SinkWork) (f : StreamCounters → StreamCounters) : SinkWork :=
  { x with ctx := { x.ctx with counters := f x.ctx.counters } }

/-- The assembly replaced. -/
def SinkWork.assemble (x : SinkWork) (a : Option Assembly) : SinkWork :=
  { x with ctx := { x.ctx with work := { x.ctx.work with assembly := a } } }

/-- The header of a line written into the slot at the write index. -/
def SinkWork.header (x : SinkWork) (line : BitVec 16) (tag : ExtPos) (reason : Reason) (valid : Nat) : SinkWork :=
  { x with memory := x.memory.write x.slot (lineHeader line tag reason valid) }

/-- The line at the write index becomes held. -/
def SinkWork.hold (x : SinkWork) : SinkWork := { x with ctx := x.ctx.hold }

/-- A line closed DAMAGED (R132, R134): held, or under DROP freed at once. -/
def SinkWork.closeDamaged (x : SinkWork) (a : Assembly) : SinkWork :=
  let x1 := x.header a.line a.tag .damaged a.bytes
  match x.ctx.record.damaged with
  | .mark => x1.hold
  | .drop => x1.count fun c => { c with damagedDropped := bump c.damagedDropped }

/-- A line closed whose last segment has arrived in order (R132): COMPLETE, or SHORT with fewer bytes. -/
def SinkWork.closeGood (x : SinkWork) (a : Assembly) : SinkWork :=
  if a.bytes = x.ctx.record.lineBytes then
    ((x.header a.line a.tag .complete a.bytes).hold).count fun c => { c with linesReceived := bump c.linesReceived }
  else
    ((x.header a.line a.tag .short a.bytes).hold).count fun c =>
      { c with linesReceived := bump c.linesReceived, lineShort := bump c.lineShort }

/-- The expected line moves behind a closed line and the assembly becomes absent (R132). -/
def SinkWork.leave (x : SinkWork) (line : BitVec 16) : SinkWork :=
  { x with ctx := { x.ctx with work := { x.ctx.work with assembly := none, expectedLine := some (line + 1) } } }

/-- The close of a line whose last segment has arrived (R132). -/
def SinkWork.close (x : SinkWork) (a : Assembly) : SinkWork :=
  match a.cond with
  | .assembling => (x.closeGood a).leave a.line
  | .damaged => (x.closeDamaged a).leave a.line
  | .dropped => x.leave a.line

/-- The close of a line that a newer line number cuts short (step 1 of R133). -/
def SinkWork.closeOpen (x : SinkWork) (a : Assembly) : SinkWork :=
  match a.cond with
  | .assembling => ((x.count fun c => { c with damagedLine := bump c.damagedLine }).closeDamaged a).leave a.line
  | .damaged => (x.closeDamaged a).leave a.line
  | .dropped => x.leave a.line

/-- A discarded segment of the line in assembly: it closes the line if it carries the last mark (R131). -/
def SinkWork.discard (x : SinkWork) (a : Assembly) (last : Bool) : SinkWork := if last then x.close a else x.assemble (some a)

/-- A segment can be appended (the three conditions of R131). -/
def appendable (lineBytes : Nat) (a : Assembly) (g : Segment) : Bool :=
  g.index == a.next && g.offset == a.bytes && a.bytes + g.pixels.length ≤ lineBytes

/-- The assembly after an appended segment. -/
def Assembly.appended (a : Assembly) (g : Segment) : Assembly :=
  { a with bytes := a.bytes + g.pixels.length, next := a.next + 1 }

/-- A segment with the number of the line in assembly (R131). -/
def SinkWork.takeInto (x : SinkWork) (a : Assembly) (g : Segment) : SinkWork :=
  match a.cond with
  | .assembling =>
    if appendable x.ctx.record.lineBytes a g then
      let x1 := { x with memory := x.memory.write (x.slot + 16 + a.bytes) g.pixels }
      if g.last then x1.close (a.appended g) else x1.assemble (some (a.appended g))
    else (x.count fun c => { c with damagedLine := bump c.damagedLine }).discard { a with cond := .damaged } g.last
  | _ => x.discard a g.last

/-- Line `n` starts with the segment `g` (R130). The next index of a line that starts DAMAGED, and the next index, bytes received and
tag of one that starts DROPPED, are 0 (DESIGN CHOICE, assumption 63). -/
def SinkWork.start (x : SinkWork) (g : Segment) : SinkWork :=
  let x1 := { x with ctx := { x.ctx with work := { x.ctx.work with expectedLine := some g.line } } }
  if x.isFull then
    (x1.count fun c => { c with sinkOverrun := bump c.sinkOverrun }).discard ⟨g.line, 0, 0, 0, .dropped⟩ g.last
  else
    let x2 := { x1 with memory := x.memory.write (x.slot + 16) (List.replicate x.ctx.record.lineBytes 0) }
    if g.first then x2.takeInto ⟨g.line, 0, 0, g.tag, .assembling⟩ g
    else x2.discard ⟨g.line, 0, 0, 0, .damaged⟩ g.last

/-- `k` MISSING notices from line `n` on (R134). -/
def SinkWork.notices (x : SinkWork) (n : BitVec 16) : Nat → SinkWork
  | 0 => x
  | k + 1 => SinkWork.notices ((x.header n 0 .missing 0).hold) (n + 1) k

/-- The numbers from `n` on, `k` of them, become MISSING (R133, R134). -/
def SinkWork.missing (x : SinkWork) (n : BitVec 16) (k : Nat) : SinkWork :=
  match x.ctx.record.damaged with
  | .mark =>
    let room := min k (x.ctx.record.capacity - x.ctx.work.held)
    (x.notices n room).count fun c => { c with sinkOverrun := bumpBy c.sinkOverrun (k - room) }
  | .drop => x.count fun c => { c with missingLine := bumpBy c.missingLine k }

/-- A line newer than the expected one, or the expected line itself, starts after the gap before it is settled (R129,
R133). -/
def SinkWork.settleAndStart (x : SinkWork) (expected : BitVec 16) (g : Segment) : SinkWork :=
  (x.missing expected (g.line - expected).toNat).start g

/-- A segment counted as stale (R129). -/
def SinkWork.stale (x : SinkWork) : SinkWork := x.count fun c => { c with staleSegment := bump c.staleSegment }

/-- A segment that is not foreign, judged by its number and first mark (R129). -/
def SinkWork.judge (x : SinkWork) (g : Segment) : SinkWork :=
  match x.ctx.work.assembly with
  | some a =>
    if g.line = a.line then x.takeInto a g
    else if newer g.line a.line then (x.closeOpen a).settleAndStart (a.line + 1) g
    else x.stale
  | none =>
    match x.ctx.work.expectedLine with
    | some y => if g.line = y || newer g.line y then x.settleAndStart y g else x.stale
    | none =>
      if g.first then x.start g else x.count fun c => { c with unstartedSegment := bump c.unstartedSegment }

/-- A segment is foreign to its context (R128). -/
def StreamContext.foreign (c : StreamContext) (origin : Nat) (g : Segment) : Bool :=
  c.record.mode != .sink || c.record.originNode != origin || c.record.originCtx != g.srcCtx

/-- A segment frame taken by the image unit (R128). -/
def ImageUnit.takeSegment (u : ImageUnit) (origin : Nat) (g : Segment) : ImageUnit :=
  match u.contexts.get? g.destCtx with
  | some c =>
    if c.foreign origin g then
      u.setCtx g.destCtx { c with counters := { c.counters with foreignSegment := bump c.counters.foreignSegment } }
    else
      let c1 := { c with counters := { c.counters with segmentsReceived := bump c.counters.segmentsReceived } }
      let x := SinkWork.judge ⟨u.memory, c1⟩ g
      { u.setCtx g.destCtx x.ctx with memory := x.memory }
  | none => u

/-- A consumed segment frame (R128). -/
def takeSegmentFrame (s : State) (f : Frame) : State :=
  s.setImage (s.image.takeSegment f.origin.toNat (readSegment f.data))

/-! ### Delivery (R135, R136) -/

/-- The words of a line or notice, as pairs of the bytes on tap 0 and tap 1 (R135). -/
def pairWords : List Byte → List (Byte × Byte)
  | a :: b :: rest => (a, b) :: pairWords rest
  | [a] => [(a, 0)]
  | [] => []

/-- The words of the delivery of a context's oldest held line or notice (R135): the context word, the header, and for a
line its pixel bytes in address order. -/
def ImageUnit.deliveryWords (u : ImageUnit) (i : Nat) : List (Byte × Byte) :=
  let c := u.ctx i
  let header := u.oldestHeader c
  let body := if byteAt header 7 = Reason.missing.code then []
    else u.memory.bytes (c.record.slotAddress c.work.read + 16) c.record.lineBytes
  (BitVec.ofNat 8 i, 0) :: pairWords header ++ pairWords body

/-- The first context after the last served that is in SINK and has a held line (R136). -/
def ImageUnit.nextServed (u : ImageUnit) : Option Nat :=
  ((List.range 8).map (fun k => (u.lastServed + 1 + k) % 8)).find?
    (fun i => (u.ctx i).record.mode == .sink && 0 < (u.ctx i).work.held)

/-- When the first word of a delivery chosen at `now` comes onto the lines: at once, or where an aborted delivery still holds them, when
line-valid is released (R137; DESIGN CHOICE, assumption 64). -/
def ImageUnit.linesFree (u : ImageUnit) (now : Time) : Time := max now (u.released.getD 0)

/-- The arbiter's choice, when the port delivers and is free (R136), each word of it on the lines for 20 ns (R135). -/
def ImageUnit.arbitrate (u : ImageUnit) (now : Time) : ImageUnit :=
  if u.direction = .deliver && u.delivery.isNone then
    match u.nextServed with
    | some i =>
      { u with
        delivery := some ⟨i, u.linesFree now, u.linesFree now + 20 * (u.deliveryWords i).length⟩
        lastServed := i }
    | none => u
  else u

/-- The end of a delivery at `now` (R135): line-valid released, the slot freed and the line counted as delivered. -/
def ImageUnit.delivered (u : ImageUnit) (d : Delivery) (now : Time) : ImageUnit :=
  let c := u.ctx d.ctx
  { u.setCtx d.ctx
      { c.free with counters := { c.counters with linesDelivered := bump c.counters.linesDelivered } } with
    delivery := none
    released := some now }

/-- The end, at full pace, of the word that a delivery has on the lines at `now` (R135: a word takes 20 ns): where it is aborted then,
line-valid is released there (R137). None where its first word is still to come. -/
def Delivery.wordEnd (d : Delivery) (now : Time) : Option Time :=
  if d.begins ≤ now then some (d.begins + 20 * ((now - d.begins) / 20 + 1)) else none

/-- The line-valid output (LV0 in DELIVER): high from the first word of a delivery to its last, and after an abort to the end of the word
then on the lines (R135, R137). -/
def State.lineOut (s : State) : Bool :=
  s.image.direction == .deliver && (s.image.delivery.any (·.begins ≤ s.now) || s.image.released.any (s.now < ·))

/-! ### Restart and OFF (R100, R117, R137) -/

/-- The image unit after the work of a running context ends at `now` (R100, R137): the region state of a restart, and a delivery of
the context aborted, with line-valid released after the word then on the lines. -/
def ImageUnit.restart (u : ImageUnit) (i : Nat) (now : Time) : ImageUnit :=
  let c := u.ctx i
  let aborted := u.delivery.filter (fun d => d.ctx == i)
  { u.setCtx i { c with
      work := {}
      counters := if aborted.isSome then { c.counters with deliveryAborted := bump c.counters.deliveryAborted } else c.counters } with
    delivery := if aborted.isSome then none else u.delivery
    released := (aborted.bind (·.wordEnd now)).or u.released }

/-- The waiting segment of a context removed from the image class queue (R100). -/
def ForwardUnit.removeSegment (f : ForwardUnit) (i : Nat) : ForwardUnit :=
  { f with image := f.image.filter (fun e => e.owner != .segment i) }

/-- The work of a context ended, by a STREAM RESTART or a WRITE of mode OFF (R100, R117, R137); nothing happens in OFF. -/
def restartContext (s : State) (i : Nat) : State :=
  if (s.image.ctx i).record.mode = .off then s
  else
    ((s.setImage (s.image.restart i s.now)).setForward (s.forward.removeSegment i)).setMark
      ⟨s.mark.entries.modify i MarkEntry.restarted⟩

/-- Every context restarted (R97, R182). -/
def restartAll (s : State) : State := (List.range 8).foldl restartContext s

/-- A WRITE of mode OFF (R100): the work ended, the mode OFF, the region released. -/
def streamOff (s : State) (i : Nat) : State :=
  let s1 := restartContext s i
  let c := s1.image.ctx i
  setCtx s1 i { c with record := { c.record with mode := .off } }

/-! ### The WRITE of a STREAM item (R98, R99) -/

/-- A stream record with the named fields changed, the mode kept. -/
def StreamRecord.applyWrite (r : StreamRecord) (w : StreamWrite) : StreamRecord :=
  { mode := r.mode
    base := w.base.getD r.base
    size := w.size.getD r.size
    length := w.length.getD r.length
    pixel := w.pixel.getD r.pixel
    order := (w.order.getD (some r.order)).getD r.order
    destNode := w.destNode.getD r.destNode
    destCtx := w.destCtx.getD r.destCtx
    segment := w.segment.getD r.segment
    pitch := w.pitch.getD r.pitch
    origin := w.origin.getD r.origin
    originNode := w.originNode.getD r.originNode
    originCtx := w.originCtx.getD r.originCtx
    damaged := (w.damaged.getD (some r.damaged)).getD r.damaged }

/-- The write names a field other than the mode. -/
def StreamWrite.namesOther (w : StreamWrite) : Bool := { w with mode := none } != {}

/-- The named values lie in their ranges of R97 (R98). -/
def StreamWrite.inRange (w : StreamWrite) : Bool :=
  within w.base 0 255 && within w.size 0 256 && within w.length 16 8192 && w.length.all (fun n => n % 16 == 0)
    && within w.pixel 1 2 && w.order != some none && within w.destNode 1 63 && within w.destCtx 0 7
    && w.segment.all (fun n => n == 256 || n == 512 || n == 1024) && within w.pitch 1 1048576 && within w.origin 0 16777215
    && within w.originNode 1 63 && within w.originCtx 0 7 && w.damaged != some none && w.mode != some none

/-- Two regions share a block. -/
def regionsMeet (a b : StreamRecord) : Bool :=
  a.base < b.base + b.size && b.base < a.base + a.size

/-- The region of a record shares a block with that of another context that is not OFF (R99). -/
def ImageUnit.regionTaken (u : ImageUnit) (i : Nat) (r : StreamRecord) : Bool :=
  (List.range 8).any (fun j => j != i && (u.ctx j).record.mode != .off && regionsMeet r (u.ctx j).record)

/-- The checks of R99 for a change of context `i` from OFF to `mode` with the fields of `r`, the first that fails giving
the answer. -/
def checkModeOn (s : State) (i : Nat) (mode : StreamMode) (r : StreamRecord) : Status :=
  let source := mode = .source
  if source && 2 ≤ i then .range
  else if source && s.image.direction != .capture then .state
  else if mode = .sink && s.image.direction != .deliver then .state
  else if source && i = 1 && s.image.tap != .single then .state
  else if source && !s.hasAddress then .state
  else if 256 < r.base + r.size then .range
  else if s.image.regionTaken i r then .range
  else if r.capacity < 2 then .range
  else if source && (r.destNode = 63 || r.destNode = s.address) then .range
  else if source && 32 < (r.lineBytes + r.segment - 1) / r.segment then .range
  else if mode = .sink && r.originNode = 63 then .range
  else .ok

/-- The answer status of a WRITE of a STREAM item (R98, R99). In OFF a write that names a field which may only be read is STATE, behind
the ranges of R97 and before the checks of R99 (DESIGN CHOICE, assumption 82). -/
def checkStreamWrite (s : State) (i : Nat) (w : StreamWrite) : Status :=
  let r := (s.image.ctx i).record
  if r.mode != .off then
    if StreamWrite.namesOther w || (w.mode.isSome && w.mode != some (some .off)) then .state else .ok
  else if !StreamWrite.inRange w then .range
  else if w.readOnly then .state
  else
    match w.mode with
    | some (some .source) => checkModeOn s i .source (r.applyWrite w)
    | some (some .sink) => checkModeOn s i .sink (r.applyWrite w)
    | _ => .ok

/-- An accepted WRITE of a STREAM item (R98 to R100): mode OFF ends the work of a running context; in OFF the fields change,
and a mode SOURCE or SINK starts the context with the region state of a restart. -/
def writeStream (s : State) (i : Nat) (w : StreamWrite) : State :=
  let c := s.image.ctx i
  if c.record.mode != .off then (if w.mode.isSome then streamOff s i else s)
  else
    match w.mode with
    | some (some .source) => setCtx s i { c with record := { c.record.applyWrite w with mode := .source }, work := {} }
    | some (some .sink) => setCtx s i { c with record := { c.record.applyWrite w with mode := .sink }, work := {} }
    | _ => setCtx s i { c with record := c.record.applyWrite w }

/-! ### The image port settings (R101) -/

/-- The answer status of a WRITE of the image port direction (R101). A value that is not named is answered RANGE also where a context is
on (DESIGN CHOICE, assumption 16). -/
def ImageUnit.checkDirection (u : ImageUnit) (d : Option (Option ImageDirection)) : Status :=
  match d with
  | none => .ok
  | some none => .range
  | some (some _) => if (List.range 8).any (fun i => (u.ctx i).record.mode != .off) then .state else .ok

/-- The answer status of a WRITE of the tap mode (R101). A value that is not named is answered RANGE also where context 0 or 1 is a SOURCE
(DESIGN CHOICE, assumption 16). -/
def ImageUnit.checkTap (u : ImageUnit) (t : Option (Option TapMode)) : Status :=
  match t with
  | none => .ok
  | some none => .range
  | some (some _) => if (u.ctx 0).record.mode = .source || (u.ctx 1).record.mode = .source then .state else .ok

end Sys2Proof.Machine
end

