-- ==== Sys2Proof/Machine/Election.lean ====
section
/-!
DEFINITION. The election unit (chapter 11), with what a node's cycle unit does on becoming and on leaving master (R19, R20).
-/
namespace Sys2Proof.Machine

/-- 5 ms, 10 ms, 20 ms and 40 ms (R174, R178). -/
def ms5 : Time := 5000000
def ms10 : Time := 10000000
def ms20 : Time := 20000000
def ms40 : Time := 40000000

/-! ### Becoming and leaving master -/

/-- The cycle unit of a node that enters MASTER (R19): the generator starts from values the node holds, clamped with the J that was
written last (DESIGN CHOICE, assumption 62). Vt starts from the last target velocity also where no copy has been taken since reset and an
earlier term of the node as master has set it (R20; DESIGN CHOICE, assumption 74). -/
def CycleUnit.becomeMaster (u : CycleUnit) : CycleUnit :=
  { u with
    gen := { u.gen with position := u.mloc, v := clampMag u.jump u.lastStep, vt := clampMag u.jump u.lastTarget }
    sync := .synced
    substitutes := 0
    workingPeriod := u.configuredPeriod
    returned := []
    sentNumber := none
    frameTotal := u.lastTotal
    frameArea := u.lastArea }

/-- The cycle unit of a node that leaves MASTER (R20): Vlast and the last target velocity take the last V and Vt the node
sent (kept as they are by a node that has sent none, assumption 22). -/
def CycleUnit.leaveMaster (u : CycleUnit) : CycleUnit :=
  { u with
    returned := []
    sentNumber := none
    vlast := match u.sentSpeed with
      | some x => x.1
      | none => u.vlast
    lastTarget := match u.sentSpeed with
      | some x => x.2
      | none => u.lastTarget }

/-! ### Timers and claims -/

/-- The node is capable: it has a real address and a priority above 0 (R174). -/
def State.capable (s : State) : Bool := s.hasAddress && 1 ≤ s.election.priority

/-- The listen timer started at `v`: it stands still while the ring state is ISOLATED (R176). -/
def ElectionUnit.startListen (e : ElectionUnit) (r : RingState) (now v : Time) : ElectionUnit :=
  { e with listenValue := v, listenTimer := if r = .isolated then none else some (now + v) }

/-- The node enters LISTENING with the listen timer at `v` and the claim timer stopped. -/
def ElectionUnit.listen (e : ElectionUnit) (r : RingState) (now v : Time) : ElectionUnit :=
  ({ e with state := .listening, claimTimer := none }).startListen r now v

/-- The rate floor of a claim (R178): REDUCED if either UP port runs at REDUCED. -/
def rateFloor (s : State) : Rate :=
  if (s.portA.isUp && s.portA.link.rate = .reduced) || (s.portB.isUp && s.portB.link.rate = .reduced) then .reduced else .full

/-- A claim of this node placed in the management class queue (R178, R181). -/
def placeClaim (s : State) (attempt : Nat) : State :=
  placeFrame s .management .election .claim 0
    (.bytes (claimPayload s.addressByte s.election.priority attempt (rateFloor s)))

/-- The claim step (R178). -/
def claimStep (s : State) : State :=
  if s.election.attempts < 5 then
    let n := s.election.attempts + 1
    let s1 := placeClaim s n
    s1.setElection { s1.election with
      state := .claiming
      attempts := n
      claimTimer := some (s.now + ms20)
      listenTimer := none
      counters := { s1.election.counters with claimsPlaced := bump s1.election.counters.claimsPlaced } }
  else
    s.setElection { s.election with
      state := .failed
      claimTimer := none
      listenTimer := none
      counters := { s.election.counters with electionFailed := true } }

/-- The listen timer expires (R176). -/
def listenExpired (s : State) : State := claimStep (s.setElection { s.election with quiet := false })

/-- The cycle unit enters LOST (R7, R176). -/
def electionLost (s : State) : State :=
  if s.election.state = .listening && !s.election.quiet then
    claimStep (s.setElection { s.election with listenTimer := none })
  else s

/-- A cycle copy is handed to the election unit of a node not in MASTER (R177). -/
def ElectionUnit.hearCopy (e : ElectionUnit) (r : RingState) (now : Time) : ElectionUnit :=
  match e.state with
  | .listening => ({ e with quiet := false, attempts := 0 }).startListen r now ms40
  | .claiming => ({ e with attempts := 0 }).listen r now ms40
  | .failed => ({ e with attempts := 0 }).listen r now ms40
  | .passive => e
  | .master => e

/-- The fields of a claim frame (chapter 11.3). -/
structure Claim where
  claimer : Nat
  priority : Nat
  attempt : Nat
  floor : Byte
  deriving DecidableEq, Repr

/-- The fields read from a claim frame's payload. -/
def readClaim (l : List Byte) : Claim := ⟨fieldAt l 0 1, fieldAt l 1 1, fieldAt l 2 1, byteAt l 3⟩

/-- A claim is stronger than this node's own strength (chapter 11): a higher priority, or an equal one and a lower address. A
claim with the node's own address counts as weaker: in CLAIMING by R179, and at a master, to which no rule carries that over, as the
model's choice (DESIGN CHOICE, assumption 84). -/
def strongerClaim (s : State) (c : Claim) : Bool :=
  c.claimer != s.address
    && (s.election.priority < c.priority || (s.election.priority = c.priority && c.claimer < s.address))

/-- A claim handed back for forwarding: its floor lowered if an UP port runs at REDUCED (R179). -/
def lowerFloor (s : State) (f : Frame) : Frame :=
  if rateFloor s = .reduced then { f with payload := .bytes (f.data.set 3 (Rate.reduced).code) } else f

/-- The counters of the election unit changed. -/
def countElection (s : State) (f : ElectionCounters → ElectionCounters) : State :=
  s.setElection { s.election with counters := f s.election.counters }

/-- A claim handed back and sent on (R162, R179). -/
def forwardClaim (s : State) (p : PortId) (f : Frame) : State :=
  forwardFrame (countElection s fun c => { c with claimsForwarded := bump c.claimsForwarded }) p (lowerFloor s f)

/-- A claim dropped by the state table (R179, R181). -/
def dropClaim (s : State) : State := countElection s fun c => { c with claimsDropped := bump c.claimsDropped }

/-- The node leaves MASTER for LISTENING, a stronger master having announced itself (R20, R181). -/
def yieldMaster (s : State) : State :=
  let e := ({ s.election with attempts := 0 }).listen s.forward.ring s.now ms40
  (s.setCycle s.cycle.leaveMaster).setElection
    { e with counters := { e.counters with masterConflict := bump e.counters.masterConflict } }

/-- A claim frame from another node (R179, R181). A master drops a claim with an attempt number over 5 like an ordinary one (DESIGN
CHOICE, assumption 68). A master drops every claim, one with its own claimer address too, as the table of
R179 and R181 say; a sentence of R179 forwards that one (DESIGN CHOICE, assumption 56), and it never yields to that one (DESIGN CHOICE,
assumption 84). -/
def takeClaim (s : State) (p : PortId) (f : Frame) : State :=
  let c := readClaim f.data
  if c.claimer = 0 || 62 < c.claimer || c.priority = 0 || 15 < c.priority then
    countElection s fun k => { k with badClaim := bump k.badClaim }
  else
    match s.election.state with
    | .master =>
      let s1 := dropClaim s
      if c.attempt = 0 && strongerClaim s c then yieldMaster s1 else s1
    | .claiming =>
      if strongerClaim s c then
        forwardClaim (s.setElection (s.election.listen s.forward.ring s.now ms40)) p f
      else dropClaim s
    | _ => forwardClaim s p f

/-- The node wins the election with its returned claim (R180). A floor byte that is neither code is not REDUCED (DESIGN CHOICE,
assumption 69). -/
def winElection (s : State) (floor : Byte) : State :=
  let rate := if floor = Rate.code .reduced || rateFloor s = .reduced then Rate.reduced else .full
  (s.setCycle ({ s.cycle with ringRate := rate }).becomeMaster).setElection
    { s.election with
      state := .master
      attempts := 0
      claimTimer := none
      counters := { s.election.counters with electionsWon := bump s.election.counters.electionsWon } }

/-- A node's own claim comes back to it (R180). -/
def ownClaimReturned (s : State) (f : Frame) : State :=
  let c := readClaim f.data
  if s.election.state = .claiming && c.attempt != 0 then winElection s c.floor
  else countElection s fun k => { k with ownClaimDiscarded := bump k.ownClaimDiscarded }

/-- A foreign copy reaches a master (R181): a conflict claim is placed, at most one per cycle interval. -/
def foreignCopy (s : State) : State :=
  if s.election.conflictPlaced then s
  else
    let s1 := placeClaim s 0
    s1.setElection { s1.election with
      conflictPlaced := true
      counters := { s1.election.counters with conflictClaimsPlaced := bump s1.election.counters.conflictClaimsPlaced } }

/-- What a RING RESTART does to the election unit, and to the cycle unit of a master (R182). -/
def electionRestart (s : State) : State :=
  if s.election.state = .passive then s
  else
    let s1 := if s.election.state = .master then s.setCycle s.cycle.leaveMaster else s
    s1.setElection (({ s.election with attempts := 0, conflictPlaced := false, quiet := true }).listen s.forward.ring s.now ms5)

/-- The answer status of a WRITE of the priority (R175). -/
def checkPriority (s : State) (p : Option Nat) : Status :=
  match p with
  | none => .ok
  | some n => if 15 < n then .range else if n = 0 && s.election.state = .master then .state else .ok

/-- An accepted WRITE of the priority (R175). The 10 ms are asked by the sync state UNSYNCED, so a node that has been MASTER without ever
taking a cycle copy listens 40 ms (DESIGN CHOICE, assumption 80). -/
def writePriority (s : State) (n : Nat) : State :=
  let e := { s.election with priority := n }
  s.setElection (
    match s.election.state with
    | .master => e
    | .passive =>
      if n = 0 || !s.hasAddress then e
      else e.listen s.forward.ring s.now (if s.cycle.sync = .unsynced then ms10 else ms40)
    | _ =>
      if n = 0 then { e with state := .passive, claimTimer := none, listenTimer := none, attempts := 0, quiet := false }
      else e)

/-- The listen timer follows a change of the ring state (R176): it is stopped in ISOLATED, and starts again when a port
comes UP. -/
def ElectionUnit.ringChanged (e : ElectionUnit) (before after : RingState) (now : Time) : ElectionUnit :=
  if e.state != .listening then e
  else if after = .isolated then { e with listenTimer := none }
  else if before = .isolated then { e with listenTimer := some (now + e.listenValue) }
  else e

end Sys2Proof.Machine
end

