-- ==== Sys2Proof/Machine/Cycle.lean ====
section
/-!
DEFINITION. The cycle unit (chapter 1): slots, the taking of copies, the cycle event and what it hands on, substitute
cycles, and the virtual master generator.
-/
namespace Sys2Proof.Machine

/-! ### Slots (R2) -/

/-- The number of axes in FOLLOW. -/
def AxisUnit.following (u : AxisUnit) : Nat := (u.entries.list.filter (fun e => e.state == .follow)).length

/-- The number of axes whose trip source is active (R2, R42). -/
def AxisUnit.faulted (u : AxisUnit) : Nat := (u.entries.list.filter AxisEntry.tripping).length

/-- The stream status byte (R2, R102). -/
def ImageUnit.statusByte (u : ImageUnit) : Byte := marksWhere 8 (fun i => (u.ctx i).full)

/-- The node's slot content at this moment (R2). -/
def slotNow (s : State) : Slot :=
  makeSlot s.cycle.sync s.forward.ring s.axis.following s.axis.faulted s.image.statusByte s.trip.own

/-- The slot content for a cycle number: the content captured for it, or a new capture (R2). -/
def slotFor (s : State) (n : BitVec 16) : Slot :=
  match s.cycle.capture with
  | some (m, x) => if m = n then x else slotNow s
  | none => slotNow s

/-- The state with the slot content of a cycle number captured (R2). -/
def captureSlot (s : State) (n : BitVec 16) : State := s.setCycle { s.cycle with capture := some (n, slotFor s n) }

/-- The OR of the own-raised words of the written slots, the slot of address `own` left out (R12, R84); 0 leaves out
none. -/
def areaWord (a : SlotArea) (own : Nat) : Marks :=
  (a.list.mapIdx (fun i x => if slotWritten x && i + 1 != own then slotWord x else 0)).foldl (· ||| ·) 0

/-! ### The step of Mloc and the cycle event (R11 to R13) -/

/-- Mloc follows a target by a step of at most J (R11). -/
def CycleUnit.follow (u : CycleUnit) (target : ExtPos) : CycleUnit :=
  let d := extDiff u.mloc target
  let step := clampMag u.jump d
  let mloc := u.mloc + BitVec.ofInt 40 step
  { u with
    mloc := mloc
    lastStep := step
    lag := extDiff mloc target
    jumpFlag := u.jumpFlag || step != d
    counters := if step != d then { u.counters with masterJump := bump u.counters.masterJump } else u.counters }

/-- The arrival delay of a port, µs (R13). -/
def CycleUnit.arrivalDelay (u : CycleUnit) : Option PortId → Nat
  | some .a => u.dA
  | some .b => u.dB
  | none => 0

/-- A cycle event hands on what R12 lists, in its order: the step to the axis unit, whose written stop groups come into use (R23)
and which computes every axis (with the values for the poll at the output instant `due`, or at once if that has passed, R13),
the move of Mloc to the trigger generators, the renewal to the forwarding unit, the received words to the trip unit. It clears
the election unit's conflict mark (R181). -/
def cycleEvent (s : State) (before : ExtPos) (due : Int) (received : Option (Marks × Marks)) : State :=
  let axis := (s.axis.takeGroups s.trip).compute s.cycle.lastStep
  let short := due < (s.now : Int)
  let instant := if short then s.now else due.toNat
  let cycle := if short then
      { s.cycle with counters := { s.cycle.counters with alignmentShort := bump s.cycle.counters.alignmentShort } }
    else s.cycle
  let s1 := ((s.setAxis axis).setCycle cycle).setDrive
    (s.drive.setNext ⟨instant, s.cycle.number.setWidth 8, axis.handed⟩)
  let s2 := triggerEvents s1 before s.cycle.lastStep
  let s3 := s2.setForward (s2.forward.renew s.cycle.ringRate s.cycle.workingPeriod s.cycle.expected)
  tripCycleEvent (s3.setElection { s3.election with conflictPlaced := false }) received

/-! ### Taking copies (R4 to R10) -/

/-- The classes of a copy (R4). -/
inductive CopyClass where
  | start
  | first
  | second
  | late
  | stale
  | skew
  deriving DecidableEq, Repr

/-- The class of a copy with number `n` at a node not in MASTER (R4). -/
def CycleUnit.classify (u : CycleUnit) (n : BitVec 16) : CopyClass :=
  match u.sync with
  | .unsynced => .start
  | .synced =>
    if n = u.number + 1 then .first
    else if n = u.number then (match u.numberOrigin with
      | .real => .second
      | .substitute => .late)
    else if newer n u.number then .skew
    else .stale
  | _ => if n = u.number + 1 then .first else if n = u.number then .late else .skew

/-- What the cycle unit takes from a first or skew copy besides its position (R5, R6). -/
def CycleUnit.takeFields (u : CycleUnit) (p : PortId) (c : CycleCopy) (rate : Rate) (period : Period) (now : Time) : CycleUnit :=
  { u with
    sync := .synced
    number := c.number
    numberOrigin := .real
    substitutes := 0
    vlast := c.v
    lastTarget := c.vt
    workingPeriod := period
    outDelay := c.outDelay
    ringRate := rate
    lastTotal := c.total
    lastArea := c.previous
    lastPort := some p
    lastArrival := now
    expected := now + period.time }

/-- The counters of a copy taken as a first or skew copy (R4, R6). -/
def CycleUnit.countTaken (u : CycleUnit) (skew : Bool) (now : Time) : CycleCounters :=
  { u.counters with
    skew := if skew then bump u.counters.skew else u.counters.skew
    earlyCopy := if now + u.workingPeriod.tolerance < u.expected then bump u.counters.earlyCopy else u.counters.earlyCopy }

/-- The output instant of a copy's cycle event (R13). -/
def copyInstant (u : CycleUnit) (p : PortId) (now : Time) : Int :=
  (now : Int) + (u.outDelay : Int) * 1000 - (u.arrivalDelay (some p) : Int) * 1000

/-- The trip total and upstream word a copy brings to the trip unit (R12). -/
def copyWords (s : State) (c : CycleCopy) : Marks × Marks := (c.total, areaWord c.current (if s.hasAddress then s.address else 0))

/-- A first or skew copy taken as a real cycle event (R6, R9). -/
def takeFirst (s : State) (p : PortId) (c : CycleCopy) (rate : Rate) (period : Period) (skew : Bool) : State :=
  let u := ({ s.cycle with counters := s.cycle.countTaken skew s.now }).follow c.position
  let u1 := u.takeFields p c rate period s.now
  cycleEvent (s.setCycle u1) s.cycle.mloc (copyInstant u1 p s.now) (some (copyWords s c))

/-- The copy that starts synchronisation (R5): Mloc is placed at its position, without a step. -/
def startSync (s : State) (p : PortId) (c : CycleCopy) (rate : Rate) (period : Period) : State :=
  let u := ({ s.cycle with mloc := c.position, lastStep := 0 }).takeFields p c rate period s.now
  cycleEvent (s.setCycle u) c.position (copyInstant u p s.now) (some (copyWords s c))

/-- A late copy (R10). -/
def takeLate (s : State) (c : CycleCopy) (rate : Rate) : State :=
  let u := { s.cycle with
    ringRate := rate
    lastTotal := c.total
    lastArea := c.previous
    counters := { s.cycle.counters with lateCopy := bump s.cycle.counters.lateCopy } }
  tripLateCopy (s.setCycle u) (copyWords s c).1 (copyWords s c).2

/-- A stale copy counted (R4). -/
def countStale (s : State) : State :=
  s.setCycle { s.cycle with counters := { s.cycle.counters with staleCopy := bump s.cycle.counters.staleCopy } }

/-- A cycle copy taken by the cycle unit of a node not in MASTER (R4). -/
def takeCopy (s : State) (p : PortId) (origin : Byte) (c : CycleCopy) : State :=
  match c.rate, c.period with
  | some rate, some period =>
    if c.master != origin then countStale s
    else
      match s.cycle.classify c.number with
      | .start => startSync s p c rate period
      | .first => takeFirst s p c rate period false
      | .skew => takeFirst s p c rate period true
      | .late => takeLate s c rate
      | .second => s
      | .stale => countStale s
  | _, _ => countStale s

/-- A consumed cycle frame (R4, R21, R160, R177): at a master it is a foreign copy; elsewhere the cycle unit takes it and the
election unit hears it. -/
def takeCycleFrame (s : State) (p : PortId) (f : Frame) : State :=
  if s.election.state = .master then foreignCopy s
  else
    let s1 := takeCopy s p f.origin (readCycle f.data)
    s1.setElection (s1.election.hearCopy s1.forward.ring s1.now)

/-- A node's own cycle frame comes back (R17). A node not in MASTER discards it, and its election unit does not hear it (DESIGN CHOICE,
assumption 67). -/
def copyReturned (s : State) (f : Frame) : State :=
  if s.election.state = .master then
    let c := readCycle f.data
    if s.cycle.sentNumber = some c.number then s.setCycle { s.cycle with returned := s.cycle.returned ++ [c.current] }
    else s.setCycle { s.cycle with counters := { s.cycle.counters with lateReturn := bump s.cycle.counters.lateReturn } }
  else s

/-! ### Substitute cycles (R7, R8) -/

/-- The instant of the next substitute cycle (R7). -/
def CycleUnit.substituteDue (u : CycleUnit) : Time :=
  match u.sync with
  | .unsynced => u.expected
  | _ => u.expected + u.workingPeriod.tolerance

/-- The consecutive substitute count after one more (R7). -/
def CycleUnit.nextSubstitutes (u : CycleUnit) : Nat :=
  match u.sync with
  | .unsynced => u.substitutes
  | _ => min (u.substitutes + 1) 3

/-- The cycle unit at a substitute, before Mloc moves (R7, R8). In UNSYNCED the configured period becomes the interval to the
following event (R14). -/
def CycleUnit.substitute (u : CycleUnit) : CycleUnit :=
  let n := u.nextSubstitutes
  let period := match u.sync with
    | .unsynced => u.configuredPeriod
    | _ => u.workingPeriod
  { u with
    number := u.number + 1
    numberOrigin := .substitute
    substitutes := n
    sync := match u.sync with
      | .unsynced => .unsynced
      | _ => if n < 3 then .coasting else .lost
    vlast := match u.sync with
      | .unsynced => u.vlast
      | _ => if n < 3 then u.vlast else slowDown u.vlast u.coast
    workingPeriod := period
    expected := u.expected + period.time
    counters := { u.counters with substituteCycle := bump u.counters.substituteCycle } }

/-- A substitute cycle (R7, R8, R13). -/
def substituteCycle (s : State) : State :=
  let u := s.cycle.substitute
  let u1 := u.follow (u.mloc + BitVec.ofInt 40 u.vlast)
  let due : Int := (s.cycle.expected : Int) + (u1.outDelay : Int) * 1000 - (u1.arrivalDelay u1.lastPort : Int) * 1000
  let s1 := cycleEvent (s.setCycle u1) s.cycle.mloc due none
  if s.cycle.sync != .lost && u.sync = .lost then electionLost s1 else s1

/-! ### The master's cycle event (R1, R15, R18, R21) -/

/-- The generator after one step (R15): `stop` says that a MASTER_STOP channel is in the view. -/
def Generator.step (g : Generator) (jump : Nat) (stop : Bool) : Generator :=
  let vt := if stop then 0 else g.vt
  let v := clampMag jump (approach g.v vt (if stop then g.decel else g.accel))
  { g with vt := vt, v := v, position := g.position + BitVec.ofInt 40 v }

/-- The merged slot of a round (R18): that of the copy that returned first among those that have it written. -/
def mergedSlot (returned : List SlotArea) (i : Nat) : Slot :=
  match returned.find? (fun a => slotWritten (a.getD i 0)) with
  | some a => a.getD i 0
  | none => 0

/-- The merged area of a round (R18). -/
def mergedArea (returned : List SlotArea) : SlotArea := Table.ofFn 62 (mergedSlot returned)

/-- The merge of the previous round (R18): none at the first event of a term; with no returned copy the area and total of
the frame before stay and the round is counted lost. -/
def CycleUnit.merge (u : CycleUnit) : CycleUnit :=
  match u.sentNumber with
  | none => u
  | some _ =>
    if u.returned = [] then { u with counters := { u.counters with roundLost := bump u.counters.roundLost } }
    else
      let area := mergedArea u.returned
      { u with frameArea := area, frameTotal := areaWord area 0, returned := [] }

/-- The output delay a master sends, µs (R1): its D_out, or half its configured period if that is less. -/
def CycleUnit.sentDelay (u : CycleUnit) : Nat := min u.dOut (u.configuredPeriod.us / 2)

/-- The cycle frame a master sends (R1), its own slot alone written in the current area. -/
def masterFrame (s : State) : Frame :=
  let u := s.cycle
  Frame.own s.addressByte .cycle 0
    (.bytes (writeCycle u.number u.ringRate u.configuredPeriod s.addressByte u.gen.position u.gen.v u.gen.vt u.sentDelay
      u.frameTotal u.frameArea (SlotArea.empty.set (s.address - 1) (slotFor s u.number))))

/-- The cycle unit of a master at its cycle event, before the frame is sent: the generator steps, the round is merged and
the cycle number advances (R15, R18, R21). -/
def CycleUnit.masterStep (u : CycleUnit) (stop : Bool) : CycleUnit :=
  let u1 := ({ u with gen := u.gen.step u.jump stop }).merge
  { u1 with number := u1.number + 1, numberOrigin := .real }

/-- The cycle unit of a master once its frame is sent, with the next event one configured period later (R17, R20, R21). A frame that
is built while no port is UP, and of which R1 sends no copy, counts as sent too (DESIGN CHOICE, assumption 72). -/
def CycleUnit.masterSent (u : CycleUnit) (now : Time) : CycleUnit :=
  { u with
    sentNumber := some u.number
    sentSpeed := some (u.gen.v, u.gen.vt)
    workingPeriod := u.configuredPeriod
    expected := now + u.configuredPeriod.time }

/-- A master's cycle event (R21): the generator steps, the round is merged, the frame is sent, Mloc follows, and the event
hands on the total of the frame sent with an empty upstream word (R18, R84). -/
def masterEvent (s : State) : State :=
  let s1 := s.setCycle (s.cycle.masterStep (masterStopInView s.trip))
  let s2 := captureSlot s1 s1.cycle.number
  let s3 := sendBoth s2 (masterFrame s1)
  let u := (s3.cycle.masterSent s.now).follow s3.cycle.gen.position
  cycleEvent (s3.setCycle u) s.cycle.mloc ((s.now : Int) + (u.sentDelay : Int) * 1000) (some (u.frameTotal, 0))

/-! ### Settings (R14, R16) -/

/-- The named settings lie in their ranges (R14). -/
def CycleWrite.inRange (w : CycleWrite) : Bool :=
  w.period.all (fun p => (Period.ofMicros p).isSome) && within w.jump 1 4194304 && within w.coast 1 65535
    && within w.dA 0 1000 && within w.dB 0 1000 && within w.dOut 0 1000 && within w.accel 1 65535 && within w.decel 1 65535

/-- The answer status of a WRITE of the cycle unit's settings (R14). -/
def checkCycleWrite (s : State) (w : CycleWrite) : Status :=
  if !CycleWrite.inRange w then .range
  else if s.election.state = .master && w.jump.any (fun j => j < s.cycle.gen.v.natAbs) then .state
  else .ok

/-- The cycle unit after an accepted WRITE (R11, R14); at a master Vt is clamped to a new J at once. -/
def CycleUnit.applyWrite (u : CycleUnit) (w : NodeWrite) (master : Bool) : CycleUnit :=
  let c := w.cycle
  { u with
    configuredPeriod := ((c.period.bind Period.ofMicros).getD u.configuredPeriod)
    jump := c.jump.getD u.jump
    coast := c.coast.getD u.coast
    dA := c.dA.getD u.dA
    dB := c.dB.getD u.dB
    dOut := c.dOut.getD u.dOut
    gen := { u.gen with
      accel := c.accel.getD u.gen.accel
      decel := c.decel.getD u.gen.decel
      vt := match c.jump with
        | some j => if master then clampMag j u.gen.vt else u.gen.vt
        | none => u.gen.vt }
    jumpFlag := u.jumpFlag && !(w.jumpFlag.getD false)
    jumpMasked := w.jumpMask.getD u.jumpMasked }

end Sys2Proof.Machine
end

