-- ==== Sys2Proof/Machine/Operands.lean ====
section
/-!
DEFINITION. The operands of queued requests: the kind, item and index of a request (R197, chapter 13.2), the data of
AXIS, TRIP RESET and SET SPEED requests (R173), and which fields a WRITE of the NODE item or of an AXIS item names.
-/
namespace Sys2Proof.Machine

/-- How a request kind uses the item (R197). -/
inductive ItemUse where
  | none
  | any
  | only (i : Item)
  deriving DecidableEq, Repr

end Sys2Proof.Machine

namespace Sys2Proof

/-- The item column of R197. -/
def RequestKind.use : RequestKind → Machine.ItemUse
  | .read => .any
  | .write => .any
  | .readClear => .only .counters
  | .tripReset => .none
  | .tripCommit => .none
  | .axis => .only .axis
  | .setSpeed => .none
  | .streamRestart => .only .stream
  | .retrain => .only .port
  | .ringRestart => .none
  | .nodeReset => .none

/-- How many entries an item has (chapter 13.2): its index runs from 0. -/
def Item.entries : Item → Nat
  | .node => 1
  | .axis => 16
  | .term => 128
  | .programLength => 1
  | .activeTerm => 128
  | .action => 32
  | .stream => 8
  | .mark => 2
  | .tile => 256
  | .port => 2
  | .view => 1
  | .counters => 12

/-- The code of an AXIS request's command (R173). -/
def AxisCommand.ofCode (b : Byte) : Option AxisCommand :=
  match b.toNat with
  | 1 => some .enable
  | 2 => some .engage
  | 3 => some .stop
  | 4 => some .disable
  | 5 => some .release
  | _ => none

/-- The write names a setting of the cycle unit (R14). -/
def NodeWrite.namesCycle (w : NodeWrite) : Bool := w.cycle != {}

/-- The write names the MASTER_JUMP flag field or mask (R11). -/
def NodeWrite.namesJump (w : NodeWrite) : Bool := w.jumpFlag.isSome || w.jumpMask.isSome

/-- The write names the image port direction or the tap mode (R101). -/
def NodeWrite.namesImage (w : NodeWrite) : Bool := w.direction.isSome || w.tap.isSome

/-- The write names A or Kc (R171). -/
def NodeWrite.namesAllowance (w : NodeWrite) : Bool := w.allowance.isSome || w.consoleCap.isSome

/-- The write names O or O_t (R24). -/
def AxisWrite.namesOffset (w : AxisWrite) : Bool := w.offset.isSome || w.target.isSome

end Sys2Proof

namespace Sys2Proof.Machine

/-- The kind of a request, if its code is one of the eleven. -/
def Request.kindOf (r : Request) : Option RequestKind := RequestKind.ofCode r.kind

/-- The item of a request, if its code is one of the twelve. -/
def Request.itemOf (r : Request) : Option Item := Item.ofCode r.item

/-- The index of a request. -/
def Request.entry (r : Request) : Nat := r.index.toNat

/-- The command of an AXIS request, if its data names one of the five (R173, R197). -/
def Request.command (r : Request) : Option AxisCommand :=
  match r.data with
  | b :: _ => AxisCommand.ofCode b
  | [] => none

/-- The channel mask of a TRIP RESET request (R173). -/
def Request.channelMask (r : Request) : Marks := BitVec.ofNat 32 (fieldAt r.data 0 4)

/-- The target velocity of a SET SPEED request (R173). -/
def Request.targetSpeed (r : Request) : Int := intAt r.data 0 4

/-- The acceleration of a SET SPEED request (R173). -/
def Request.acceleration (r : Request) : Nat := fieldAt r.data 4 2

/-- The port of a PORT item's index (chapter 13.1). -/
def Request.portOf (r : Request) : PortId := if r.index = 0 then .a else .b

/-- The request is of kind `k`. -/
def Request.isKind (r : Request) (k : RequestKind) : Bool := r.kindOf == some k

/-- The request is a WRITE to item `i`. -/
def Request.writes (r : Request) (i : Item) : Bool := r.isKind .write && r.itemOf == some i

/-- The request is an AXIS request with command `c`, or with no valid command (R197). -/
def Request.commands (r : Request) (c : AxisCommand) : Bool :=
  r.isKind .axis && r.command.all (fun x => x == c)

/-- The request is a WRITE that has no row of its own: to a staging term, the program length, an item that is only
read, an unknown item, or the NODE item naming only its strap address. -/
def Request.writesPlain (r : Request) : Bool :=
  r.isKind .write && r.itemOf.all (fun i => i == .term || i == .programLength || i == .activeTerm || i == .view
    || i == .counters || i == .node)

end Sys2Proof.Machine
end

