-- ==== Sys2Proof/Machine/Agent.lean ====
section
/-!
DEFINITION. The management agent (chapter 13): the taking of requests, the checks of R194, the answers of R195, and what a
READ and a READ-CLEAR return.
-/
namespace Sys2Proof.Machine

/-! ### Answers (R195) -/

/-- No data. -/
def noData : AnswerData := .bytes []

/-- The answering node of an ANSWER record made here (R195). -/
def answeringNode (s : State) : Byte := if s.hasAddress then s.addressByte else Config.unaddressedAnswerer s.straps

/-- A request answered (R195): by an ANSWER record if it came from the node's own console, by an answer frame with the given
owner otherwise. -/
def answerAs (s : State) (owner : Owner) (r : Request) (st : Status) (data : AnswerData) (closing : Bool) : State :=
  if r.loc then placeReply s (.answer r.tag (answeringNode s) st.code data closing)
  else placeFrame s .management owner .answer r.origin (answerPayload r.tag st data)

/-- The agent's counters changed. -/
def countAgent (s : State) (f : AgentCounters → AgentCounters) : State :=
  s.setAgent { s.agent with counters := f s.agent.counters }

/-- A request taken into the queue, or answered BUSY at once when the queue holds 8 (R193). -/
def takeRequest (s : State) (r : Request) : State :=
  if s.agent.queue.length < 8 then
    s.setAgent { s.agent with
      queue := s.agent.queue ++ [r]
      counters := { s.agent.counters with requestsTaken := bump s.agent.counters.requestsTaken } }
  else
    answerAs (countAgent s fun c => { c with busy := bump c.busy }) .busyAnswer r .busy noData false

/-! ### Execution (R194) -/

/-- The agent can execute: no answer frame of its own waits in the management class queue, and no executed NODE RESET waits
to begin (R194, R198). A BUSY answer that waits there does not hold it back (DESIGN CHOICE, assumption 70). A RING RESTART is no exception, so it never flushes the agent's own answer, though R195 and R199 tell of that
(DESIGN CHOICE, assumption 59). -/
def agentFree (s : State) : Bool :=
  s.agent.resetWait.isNone && !(s.forward.management.any fun e => e.owner == .answer false || e.owner == .answer true)

/-- The origin's mark is set in the write-permit mask (check 2 of R194); a request from the console of a node without an
address passes. -/
def permitted (s : State) (r : Request) : Bool :=
  (r.loc && !s.hasAddress) || (r.origin != 0 && s.agent.permit.getLsbD (r.origin.toNat - 1))

/-- Checks 2 to 4 of R194 for a request of kind `k`. -/
def firstChecks (s : State) (r : Request) (k : RequestKind) : Status :=
  if k != .read && !permitted s r then .denied
  else
    match k.use with
    | .none => .ok
    | .any =>
      match r.itemOf with
      | some i => if r.entry < i.entries then .ok else .range
      | none => .unknown
    | .only j => if r.itemOf = some j then (if r.entry < j.entries then .ok else .range) else .unknown

/-- The denied and unknown counters at an answer status (R194). -/
def AgentCounters.ofStatus (c : AgentCounters) (st : Status) : AgentCounters :=
  match st with
  | .denied => { c with denied := bump c.denied }
  | .unknown => { c with unknown := bump c.unknown }
  | _ => c

/-- What the owning block makes of an executed request: the answer status, its data and the state after the effect. -/
structure Executed where
  status : Status
  data : AnswerData := .bytes []
  state : State

/-- A refusal by the owning block: nothing changes (R194). -/
def refuse (s : State) (st : Status) : Executed := { status := st, state := s }

/-- The effect of an accepted request that answers OK without data. -/
def accept (s : State) : Executed := { status := .ok, state := s }

/-- The owning block's checks gave `st`; if they passed, `f` is the state after the effect. -/
def checked (s : State) (st : Status) (f : State) : Executed := if st = .ok then accept f else refuse s st

/-- The request at the head of the queue, removed, if the agent can execute and the command `mine` is about it. -/
def takeHead (s : State) (mine : Request → Bool) : Option (Request × State) :=
  match s.agent.queue with
  | r :: rest => if agentFree s && mine r then some (r, s.setAgent { s.agent with queue := rest }) else none
  | [] => none

/-- The answer to an executed request (R194, R195); the answer to an executed NODE RESET is the closing one (R198). -/
def answerRequest (r : Request) (k : Option RequestKind) (e : Executed) : State :=
  let closing := k = some .nodeReset && e.status = .ok
  answerAs (countAgent e.state fun c => c.ofStatus e.status) (.answer closing) r e.status e.data closing

/-- The execution of the request at the head of the queue (R194): the checks in their order, the effect `act` of the owning
block, and the answer at its end. -/
def execute (s : State) (mine : Request → Bool) (k : RequestKind) (act : State → Request → Executed) : State :=
  match takeHead s mine with
  | none => s
  | some (r, s1) =>
    match firstChecks s1 r k with
    | .ok => answerRequest r (some k) (act s1 r)
    | st => answerRequest r (some k) (refuse s1 st)

/-- The execution of a request whose kind is none of the eleven (check 1 of R194). -/
def executeUnknown (s : State) : State :=
  match takeHead s (fun r => r.kindOf.isNone) with
  | none => s
  | some (r, s1) => answerRequest r none (refuse s1 .unknown)

/-! ### READ (R196) -/

/-- The time left until an instant. -/
def remaining (s : State) (t : Option Time) : Option Time := t.map (fun x => x - s.now)

/-- The NODE entry. -/
def nodeEntry (s : State) : NodeEntry :=
  { cycle := s.cycle
    direction := s.image.direction
    tap := s.image.tap
    lastServed := s.image.lastServed
    allowance := s.forward.allowance
    consoleCap := s.forward.consoleCap
    allowanceEff := s.forward.allowanceEff
    managementUsed := s.forward.managementUsed
    consoleUsed := s.forward.consoleUsed
    sharedUsed := s.forward.sharedUsed
    ring := s.forward.ring
    ownSend := ownSendPort s.forward.ring
    queues := {
      tripA := s.portA.trips.length
      tripB := s.portB.trips.length
      cycleA := s.portA.cycles.length
      cycleB := s.portB.cycles.length
      transitA := s.portA.transitBytes
      transitB := s.portB.transitBytes
      management := s.forward.management.length
      console := s.forward.console.length
      image := s.forward.image.length
      outbound := s.console.outbound.length
      inbound := s.console.inbound.length
      replies := s.console.replies.length }
    holdOut := s.console.outbound.length == 64
    holdIn := s.console.holdIn
    election := s.election.state
    priority := s.election.priority
    attempts := s.election.attempts
    quiet := s.election.quiet
    claimRemaining := remaining s s.election.claimTimer
    listenRemaining := remaining s s.election.listenTimer
    permit := s.agent.permit
    straps := s.straps }

/-- The VIEW entry (R74, R96). -/
def viewEntry (s : State) : ViewEntry :=
  let t := s.trip
  { own := t.own
    sources := t.sources
    filtered := t.filtered
    blank := t.blank
    seq := t.seq
    view := t.view
    held := t.held
    total := t.total
    upstream := t.upstream
    dedupe := t.dedupe
    outputs := s.toPins
    strongest := (List.range 4).map (strongest t.actions t.view) }

/-- The STREAM entry of context `i` (R114, R139). -/
def streamEntry (s : State) (i : Nat) : StreamEntry :=
  let c := s.image.ctx i
  { record := c.record
    slotSize := c.record.slotSize
    capacity := c.record.capacity
    write := c.work.write
    read := c.work.read
    held := c.work.held
    nextLine := c.work.nextLine
    capturing := c.work.capture.isSome
    scheduled := c.work.triggers.length
    expectedLine := c.work.expectedLine
    assembly := c.work.assembly
    delivering := s.image.delivery.any (fun d => d.ctx == i) }

/-- The PORT entry (R191). -/
def portEntry (s : State) (p : PortId) : PortEntry :=
  let l := (s.port p).link
  { state := l.state
    enabled := l.enabled
    rate := l.rate
    attempt := l.attempt
    beenUp := l.beenUp
    frames := l.frames
    errors := l.errors
    timer := remaining s (l.watchdog.orElse fun _ => l.retry)
    neighbour := l.neighbour }

/-- The counters and latched events of a block, numbered as R196 numbers them. -/
def blockCounters (s : State) (i : Nat) : BlockCounters :=
  match i with
  | 0 => .cycle s.cycle.counters
  | 1 => .axis s.axis.counters
  | 2 => .drive s.drive.counters
  | 3 => .trip s.trip.counters
  | 4 => .image (s.image.contexts.list.map (·.counters))
  | 5 => .mark (s.mark.entries.list.map (·.counters))
  | 6 => .console s.console.counters
  | 7 => .forward s.forward.counters s.portA.counters s.portB.counters
  | 8 => .election s.election.counters
  | 9 => .port s.portA.link.counters
  | 10 => .port s.portB.link.counters
  | _ => .agent s.agent.counters

/-- The counters of a fibre port's link cleared. -/
def FibrePort.clearLink (p : FibrePort) : FibrePort := { p with link := { p.link with counters := {} } }

/-- The counters and latched events of a block cleared (R196). -/
def clearCounters (s : State) (i : Nat) : State :=
  match i with
  | 0 => s.setCycle { s.cycle with counters := {} }
  | 1 => s.setAxis { s.axis with counters := {} }
  | 2 => s.setDrive { s.drive with counters := {} }
  | 3 => s.setTrip { s.trip with counters := {} }
  | 4 => s.setImage { s.image with contexts := s.image.contexts.map (fun c => { c with counters := {} }) }
  | 5 => s.setMark ⟨s.mark.entries.map (fun m => { m with counters := {} })⟩
  | 6 => s.setConsole { s.console with counters := {} }
  | 7 => ((s.setForward { s.forward with counters := {} }).setPort .a { s.portA with counters := {} }).setPort .b
      { s.portB with counters := {} }
  | 8 => s.setElection { s.election with counters := {} }
  | 9 => s.setPort .a s.portA.clearLink
  | 10 => s.setPort .b s.portB.clearLink
  | _ => s.setAgent { s.agent with counters := {} }

/-- An axis entry as a READ returns it (R22, R196): the fields of the entry, without those the model keeps beside them. -/
def AxisEntry.readable (e : AxisEntry) : AxisEntry := { e with groupInUse := 0, offs := 0, disables := 0 }

/-- The entry that a READ returns (R196). -/
def readEntry (s : State) (item : Item) (i : Nat) : EntryValue :=
  match item with
  | .node => .node (nodeEntry s)
  | .axis => .axis (s.axis.entries.getD i {}).readable (s.drive.status.getD i none)
  | .term => .term (s.trip.staging.terms.getD i {})
  | .programLength => .programLength s.trip.staging.length
  | .activeTerm => .activeTerm (s.trip.active.terms.getD i {}) s.trip.active.length
  | .action => .action (s.trip.actions.getD i {})
  | .stream => .stream (streamEntry s i)
  | .mark => .mark (s.mark.entries.getD i {}).record (s.mark.entries.getD i {}).search
  | .tile => .tile (s.console.tiles.getD i {})
  | .port => .port (portEntry s (if i = 0 then .a else .b))
  | .view => .view (viewEntry s)
  | .counters => .counters (blockCounters s i)

/-- The effect of a READ (R196). -/
def actRead (s : State) (r : Request) : Executed :=
  match r.itemOf with
  | some item => { status := .ok, data := .entry (readEntry s item r.entry), state := s }
  | none => refuse s .unknown

/-- The effect of a READ-CLEAR (R196): the values returned are those before the clearing. -/
def actReadClear (s : State) (r : Request) : Executed :=
  { status := .ok, data := .entry (.counters (blockCounters s r.entry)), state := clearCounters s r.entry }

/-! ### NODE RESET (R198) -/

/-- The effect of a NODE RESET: no further execution, and the reset begins at the latest 10 ms later. -/
def actNodeReset (s : State) (_ : Request) : Executed :=
  accept (s.setAgent { s.agent with resetWait := some ⟨s.now + ms10, none⟩ })

/-- The closing answer has been sent whole (R198). -/
def closingSent (s : State) : State :=
  s.setAgent { s.agent with resetWait := s.agent.resetWait.map (fun w => { w with sent := some s.now }) }

/-- The instant at which a reset that waits begins: when its answer has been sent, or at the end of the 10 ms (R198). -/
def ResetWait.begins (w : ResetWait) : Time :=
  match w.sent with
  | some t => min t w.deadline
  | none => w.deadline

end Sys2Proof.Machine
end

