-- ==== Sys2Proof/Machine/Console.lean ====
section
/-!
DEFINITION. The console unit (chapter 9): records from the console and their routing, operator events and refusals, the
console transmitter, and the WRITE of a TILE item.
-/
namespace Sys2Proof.Machine

/-- The counters of the console unit changed. -/
def countConsole (s : State) (f : ConsoleCounters → ConsoleCounters) : State :=
  s.setConsole { s.console with counters := f s.console.counters }

/-! ### Records in (R140) -/

/-- The outbound record queue holds 64 records: the node asserts its hold line (R140). -/
def ConsoleUnit.holdOut (u : ConsoleUnit) : Bool := u.outbound.length == 64

/-- A record appended to the outbound queue, or discarded as an overflow (R140). -/
def appendRecord (s : State) (r : InRecord) : State :=
  if s.console.outbound.length < 64 then s.setConsole { s.console with outbound := s.console.outbound ++ [r] }
  else countConsole s fun c => { c with outboundOverflow := bump c.outboundOverflow }

/-- A record whose last byte arrives now and whose first byte arrived `span` earlier (R140): it is lost if it began before the
last reset ended, and discarded if it is bad. -/
def recordIn (s : State) (span : Nat) (bytes : List Byte) : State :=
  if s.now < s.resetEnd + span then s
  else
    match readConsoleRecord bytes with
    | some r => appendRecord s r
    | none => countConsole s fun c => { c with badRecord := bump c.badRecord }

/-! ### Operator events and refusals (R150 to R153) -/

/-- An event for this node (R150); `loc` for a record of the node's own console. -/
def takeEvent (s : State) (loc : Bool) (origin : Byte) (code : BitVec 16) (data : List Byte) : State :=
  if s.console.inbound.length < 32 then
    s.setConsole { s.console with
      inbound := s.console.inbound ++ [⟨origin, code, data⟩]
      counters := { s.console.counters with eventsReceived := bump s.console.counters.eventsReceived } }
  else
    let s1 := countConsole s fun c => { c with eventRefusedFull := bump c.eventRefusedFull }
    if loc then placeReply s1 (.refused s.addressByte code .full)
    else placeRefusal s1 origin s.addressByte code .full

/-- A consumed event frame (R150). -/
def takeEventFrame (s : State) (f : Frame) : State :=
  if f.dest = 0 then countConsole s fun c => { c with badEvent := bump c.badEvent }
  else takeEvent s false f.origin (BitVec.ofNat 16 (fieldAt f.data 0 2)) (f.data.drop 2)

/-- A node's own event frame comes back (R151). -/
def eventReturned (s : State) (f : Frame) : State :=
  placeReply (countConsole s fun c => { c with eventRefusedUnaddressed := bump c.eventRefusedUnaddressed })
    (.refused f.dest (BitVec.ofNat 16 (fieldAt f.data 0 2)) .unaddressed)

/-- A consumed refusal frame (R152). -/
def takeRefusalFrame (s : State) (f : Frame) : State :=
  match RefuseReason.ofCode (byteAt f.data 3) with
  | some reason =>
    placeReply (countConsole s fun c => { c with refusalsReceived := bump c.refusalsReceived })
      (.refused (byteAt f.data 0) (BitVec.ofNat 16 (fieldAt f.data 1 2)) reason)
  | none => s

/-- A consumed answer frame (R153). -/
def takeAnswerFrame (s : State) (f : Frame) : State :=
  placeReply s (.answer (BitVec.ofNat 16 (fieldAt f.data 0 2)) f.origin (byteAt f.data 2) (.bytes (f.data.drop 3)) false)

/-! ### Tiles (R144, R145) -/

/-- A tile update taken as one event (R144). -/
def updateTile (s : State) (tile writer : Nat) (version : BitVec 16) (content : List Byte) : State :=
  s.setConsole (s.console.update tile writer version content)

/-- A consumed tile frame (R145). -/
def takeTileFrame (s : State) (f : Frame) : State :=
  updateTile s (fieldAt f.data 0 1) f.origin.toNat (BitVec.ofNat 16 (fieldAt f.data 1 2)) (f.data.drop 3)

/-! ### Requests from the ring (R193) -/

/-- The request that a request frame carries. -/
def readRequest (f : Frame) : Request :=
  { loc := false
    origin := f.origin
    tag := BitVec.ofNat 16 (fieldAt f.data 0 2)
    kind := byteAt f.data 2
    item := byteAt f.data 3
    index := byteAt f.data 4
    data := f.data.drop 5 }

/-- A consumed request frame (R193). -/
def takeRequestFrame (s : State) (f : Frame) : State :=
  if f.origin = 0 || 62 < f.origin.toNat then countAgent s fun c => { c with badOrigin := bump c.badOrigin }
  else takeRequest s (readRequest f)

/-- A node's own request to a single node comes back (R193). The UNKNOWN that is answered for it raises the request returned counter
alone (DESIGN CHOICE, assumption 81). -/
def requestReturned (s : State) (f : Frame) : State :=
  placeReply (countAgent s fun c => { c with requestReturned := bump c.requestReturned })
    (.answer (BitVec.ofNat 16 (fieldAt f.data 0 2)) 63 Status.unknown.code noData false)

/-! ### Routing (R141, R142) -/

/-- The columns of the table of R141. -/
inductive Route where
  | own
  | other
  | broadcast
  | nowhere
  deriving DecidableEq, Repr

/-- The column of a destination at a node with an address. -/
def routeOf (s : State) (dest : Byte) : Route :=
  if dest = s.addressByte then .own
  else if dest = 0 then .broadcast
  else if dest.toNat ≤ 62 then .other
  else .nowhere

/-- The column sends a frame to the ring. -/
def Route.toRing : Route → Bool
  | .other => true
  | .broadcast => true
  | _ => false

/-- A frame of the console unit waits in the console class queue (R142). -/
def consoleFrameWaiting (f : ForwardUnit) : Bool := f.console.any (fun e => e.owner == .consoleFrame)

/-- A request frame of the console unit waits in the management class queue (R142). -/
def requestFrameWaiting (f : ForwardUnit) : Bool := f.management.any (fun e => e.owner == .consoleRequest)

/-- The head record must wait (R142). -/
def recordWaits (s : State) : InRecord → Bool
  | .tile d _ _ _ => s.hasAddress && (routeOf s d).toRing && consoleFrameWaiting s.forward
  | .event d _ _ => s.hasAddress && routeOf s d == .other && consoleFrameWaiting s.forward
  | .request _ d _ _ _ _ => s.hasAddress && (routeOf s d).toRing && requestFrameWaiting s.forward

/-- A record routed nowhere (R141). -/
def unroutable (s : State) : State := countConsole s fun c => { c with unroutableRecord := bump c.unroutableRecord }

/-- A TILE record routed (R141, R142). -/
def routeTile (s : State) (dest tile : Byte) (version : BitVec 16) (content : List Byte) : State :=
  let frame (x : State) := placeFrame x .console .consoleFrame .tile dest (.bytes (tilePayload tile version content))
  let taken (x : State) := updateTile x tile.toNat x.writer version content
  if !s.hasAddress then taken s
  else
    match routeOf s dest with
    | .own => taken s
    | .other => frame s
    | .broadcast => frame (taken s)
    | .nowhere => unroutable s

/-- An EVENT record routed (R141, R142); one refused here is counted nowhere (DEDUCED, assumption 26). -/
def routeEvent (s : State) (dest : Byte) (code : BitVec 16) (data : List Byte) : State :=
  let refused := placeReply s (.refused dest code .unaddressed)
  if !s.hasAddress then refused
  else
    match routeOf s dest with
    | .own => takeEvent s true s.addressByte code data
    | .other => placeFrame s .console .consoleFrame .event dest (.bytes (eventPayload code data))
    | .broadcast => refused
    | .nowhere => refused

/-- A REQUEST record routed (R141, R142). -/
def routeRequest (s : State) (tag : BitVec 16) (dest kind item index : Byte) (data : List Byte) : State :=
  let frame (x : State) :=
    placeFrame x .management .consoleRequest .request dest (.bytes (requestPayload tag kind item index data))
  let taken (x : State) := takeRequest x ⟨true, x.addressByte, tag, kind, item, index, data⟩
  if !s.hasAddress then taken s
  else
    match routeOf s dest with
    | .own => taken s
    | .other => frame s
    | .broadcast => frame (taken s)
    | .nowhere => unroutable s

/-- A record routed by its kind (R141). -/
def routeRecord (s : State) : InRecord → State
  | .tile d t v c => routeTile s d t v c
  | .event d c x => routeEvent s d c x
  | .request g d k i n x => routeRequest s g d k i n x

/-- The head of the outbound record queue removed and routed, unless it must wait (R141). -/
def routeHead (s : State) : State :=
  match s.console.outbound with
  | [] => s
  | r :: rest => if recordWaits s r then s else routeRecord (s.setConsole { s.console with outbound := rest }) r

/-! ### The console transmitter (R149) -/

/-- A tile's send starts: the record takes the tile as it stands, and the tile becomes CLEAN. -/
def ConsoleUnit.sendTile (u : ConsoleUnit) (n : Nat) : ConsoleUnit :=
  let t := u.tiles.getD n {}
  { u with
    sending := some (.tile n t.lastWriter t.version t.content)
    tiles := u.tiles.set n { t with state := .clean } }

/-- The next record that the transmitter starts, if any waits (R149). -/
def ConsoleUnit.startSend (u : ConsoleUnit) : ConsoleUnit :=
  match u.replies with
  | r :: rest => { u with sending := some (.reply r), replies := rest }
  | [] =>
    match u.inbound with
    | e :: rest => { u with sending := some (.event e), inbound := rest }
    | [] =>
      match u.systemQueue with
      | n :: rest => { u with systemQueue := rest }.sendTile n
      | [] =>
        match u.ordinaryQueue with
        | n :: rest => { u with ordinaryQueue := rest }.sendTile n
        | [] => u

/-- The transmitter starts the next record when it is idle and the console's hold line is released (R149). -/
def ConsoleUnit.transmit (u : ConsoleUnit) : ConsoleUnit :=
  if u.sending.isNone && !u.holdIn then u.startSend else u

/-- The record is the answer to an executed NODE RESET (R198). -/
def OutRecord.closing : OutRecord → Bool
  | .reply (.answer _ _ _ _ c) => c
  | _ => false

/-- The record on the console line has been sent whole (R149, R198). -/
def sendEnded (s : State) : State :=
  match s.console.sending with
  | some r =>
    let s1 := s.setConsole { s.console with sending := none }
    if r.closing then closingSent s1 else s1
  | none => s

/-! ### The WRITE of a TILE item (R146) -/

/-- The answer status of a WRITE of tile `n` (R146); its STATE check comes before its RANGE check (DESIGN CHOICE, assumption 16). A
write of a system tile that names no field is STATE too, where R146 speaks of one that names any (DESIGN CHOICE, assumption 71). -/
def checkTileWrite (n : Nat) (w : TileWrite) : Status :=
  if w.other || 252 ≤ n then .state else if within w.permitted 0 62 then .ok else .range

/-- The permitted writer of tile `n` written (R146). -/
def ConsoleUnit.writePermitted (u : ConsoleUnit) (n : Nat) (w : TileWrite) : ConsoleUnit :=
  { u with tiles := u.tiles.modify n (fun t => { t with permitted := w.permitted.getD t.permitted }) }

end Sys2Proof.Machine
end

