-- ==== Sys2Proof/Machine/Port.lean ====
section
/-!
DEFINITION. The port units (chapter 12): acquisition attempts and their failures, entry to and departure from UP, the CRC
window, and the requests of the PORT item.
-/
namespace Sys2Proof.Machine

/-- 2 ms and 100 ms (R186). -/
def lockTime : Time := 2000000
def retryTime : Time := 100000000

/-! ### Attempts (R186) -/

/-- The rate of an attempt (R186). -/
def attemptRate (n : Nat) : Rate := if n ≤ 3 then .full else .reduced

/-- Attempt `n` starts at the instant `now` (R186). -/
def Link.startAttempt (l : Link) (n : Nat) (now : Time) : Link :=
  { l with
    state := .acquire
    attempt := n
    rate := attemptRate n
    identity := none
    watchdog := some (now + lockTime)
    retry := none
    counters := { l.counters with downgraded := l.counters.downgraded || attemptRate n == .reduced } }

/-- The attempt in progress fails at the instant `now` (R186). -/
def Link.failAttempt (l : Link) (now : Time) : Link :=
  let next := if l.attempt < 255 then l.attempt + 1 else l.attempt
  let l1 := { l with counters := { l.counters with
    attemptFailed := bump l.counters.attemptFailed
    neverUp := l.counters.neverUp || (l.attempt == 8 && !l.beenUp) } }
  if 8 ≤ l.attempt then
    { l1 with attempt := next, identity := none, watchdog := none, retry := some (now + retryTime) }
  else l1.startAttempt next now

/-- The port is waiting in ACQUIRE for the lock of an attempt in progress. -/
def Link.attempting (l : Link) : Bool := l.state == .acquire && l.watchdog.isSome

/-- The link entered UP at `now` (R187) with the far end's identity; the port sends its own once more. -/
def Link.enterUp (l : Link) (neighbour : Byte × Byte) (now : Time) : Link :=
  { l with
    state := .up
    watchdog := none
    identity := some now
    beenUp := true
    frames := 0
    errors := 0
    neighbour := some neighbour
    counters := { l.counters with linkUp := bump l.counters.linkUp } }

/-- The link in DISABLED (R190). -/
def Link.disable (l : Link) : Link :=
  { l with state := .disabled, enabled := false, identity := none, watchdog := none, retry := none }

/-- The link restarted from attempt 1 with the been-up mark clear (R190). -/
def Link.restart (l : Link) (now : Time) : Link := { l with beenUp := false, enabled := true }.startAttempt 1 now

/-! ### The ring state (R158) -/

/-- The ring state formed anew from the two link states, and the listen timer that follows it (R158, R176). -/
def formRing (s : State) : State :=
  let r := ringOf s.portA.link.state s.portB.link.state
  (s.setForward { s.forward with ring := r }).setElection (s.election.ringChanged s.forward.ring r s.now)

/-- The link of a port replaced. -/
def setLink (s : State) (p : PortId) (l : Link) : State := s.setPort p { s.port p with link := l }

/-- The link of a port replaced by one that is not UP: if the port was UP, its queues are flushed (R167, R189); the ring state
follows. -/
def takeDown (s : State) (p : PortId) (l : Link) : State :=
  let q := if (s.port p).isUp then (s.port p).flush else s.port p
  formRing (s.setPort p { q with link := l })

/-! ### Events of the link -/

/-- The lock watchdog of a port has expired (R186). -/
def watchdogExpired (s : State) (p : PortId) : State := setLink s p ((s.port p).link.failAttempt s.now)

/-- The retry timer of a port has expired (R186). -/
def retryExpired (s : State) (p : PortId) : State :=
  setLink s p ((s.port p).link.startAttempt (s.port p).link.attempt s.now)

/-- An attempt gains word lock, and the port begins to send its identity record (R187). -/
def lockGained (s : State) (p : PortId) : State :=
  let l := (s.port p).link
  if l.attempting && l.identity.isNone then setLink s p { l with identity := some s.now } else s

/-- An identity record received (R187): one with a good CRC puts a locked port into UP, its two bytes stored as they came, also
where they name no address or letter of R185 (DESIGN CHOICE, assumption 57). -/
def identityIn (s : State) (p : PortId) (bytes : List Byte) : State :=
  let l := (s.port p).link
  if l.attempting && l.identity.isSome && bytes.length == 4 && crc16Good bytes then
    formRing (setLink s p (l.enterUp (byteAt bytes 0, byteAt bytes 1) s.now))
  else s

/-- A port in UP leaves UP and starts acquisition at FULL, with a latched event set (R189). -/
def leaveUp (s : State) (p : PortId) (latch : PortCounters → PortCounters) : State :=
  let l := (s.port p).link
  takeDown s p ({ l with counters := latch l.counters }.startAttempt 1 s.now)

/-- Word lock is lost (R186, R189). -/
def lockLost (s : State) (p : PortId) : State :=
  let l := (s.port p).link
  match l.state with
  | .up => leaveUp s p fun c => { c with lockLost := true }
  | .acquire => if l.watchdog.isSome && l.identity.isSome then setLink s p (l.failAttempt s.now) else s
  | .disabled => s

/-! ### The CRC window (R188) -/

/-- A frame counted in the window at its end (R188); `bad` for one the port drops. -/
def Link.countFrame (l : Link) (bad : Bool) : Link :=
  if bad then
    { l with
      frames := l.frames + 1
      errors := l.errors + 1
      counters := { l.counters with crcError := bump l.counters.crcError } }
  else { l with frames := l.frames + 1 }

/-- A full window gives way to a new one (R188). -/
def Link.renewWindow (l : Link) : Link := if 1024 ≤ l.frames then { l with frames := 0, errors := 0 } else l

/-- A frame received on a port that is UP is counted, and the window it fills gives way to a new one; at the eighth error of a
window the port leaves UP for quality (R188). A frame that does both does both (assumption 28). -/
def countReceived (s : State) (p : PortId) (bad : Bool) : State :=
  let l := (s.port p).link.countFrame bad
  let s1 := setLink s p l.renewWindow
  if 8 ≤ l.errors then leaveUp s1 p fun c => { c with qualityDrop := true } else s1

/-! ### Requests (R190) -/

/-- The effect of a WRITE of the enable setting (R190). -/
def writeEnable (s : State) (p : PortId) (on : Bool) : State :=
  let l := (s.port p).link
  if on then
    match l.state with
    | .disabled => setLink s p (l.restart s.now)
    | _ => s
  else
    match l.state with
    | .disabled => s
    | _ => takeDown s p l.disable

/-- A RETRAIN (R190). -/
def retrainPort (s : State) (p : PortId) : Executed :=
  let l := (s.port p).link
  match l.state with
  | .disabled => refuse s .state
  | _ => accept (takeDown s p (l.restart s.now))

end Sys2Proof.Machine
end

