-- ==== Sys2Proof/Machine/Reception.lean ====
section
/-!
DEFINITION. A frame arriving on a fibre port (R156 to R163): its reception, its hop budget, and whether it is stripped,
consumed or forwarded.
-/
namespace Sys2Proof.Machine

/-- The counters of the forwarding unit changed. -/
def countForward (s : State) (f : ForwardCounters → ForwardCounters) : State :=
  s.setForward { s.forward with counters := f s.forward.counters }

/-- A frame that arrived with a hop budget of 0 (R157, R163): an event is refused as UNADDRESSED by a node with an address,
one with destination 0 too (DESIGN CHOICE, assumption 65). No counter of the console unit counts that refusal (DESIGN CHOICE,
assumption 66). -/
def hopExpired (s : State) (f : Frame) : State :=
  let s1 := countForward s fun c => { c with hopExpired := bump c.hopExpired }
  if f.kind = .event && s.hasAddress then
    placeRefusal s1 f.origin f.dest (BitVec.ofNat 16 (fieldAt f.data 0 2)) .unaddressed
  else s1

/-- A cycle frame forwarded with the node's slot written into its current area (R2, R159). -/
def forwardCycle (s : State) (p : PortId) (f : Frame) : State :=
  let n := (readCycle f.data).number
  forwardFrame (captureSlot s n) p { f with payload := .bytes (withSlot f.data s.address (slotFor s n)) }

/-- A frame of another node forwarded by a node with an address (R159). -/
def sendOn (s : State) (p : PortId) (f : Frame) : State :=
  if f.kind = .cycle then forwardCycle s p f else forwardFrame s p f

/-- A consumed correction frame (R43). -/
def takeCorrectionFrame (s : State) (f : Frame) : State :=
  s.setAxis (s.axis.correct (fieldAt f.data 0 1) (intAt f.data 1 4))

/-- A consumed frame handed to the block of its kind (R160). -/
def consume (s : State) (p : PortId) (f : Frame) : State :=
  match f.kind with
  | .cycle => takeCycleFrame s p f
  | .trip => takeTripFrame s f
  | .claim => s
  | .segment => takeSegmentFrame s f
  | .tile => takeTileFrame s f
  | .event => takeEventFrame s f
  | .refusal => takeRefusalFrame s f
  | .correction => takeCorrectionFrame s f
  | .request => takeRequestFrame s f
  | .answer => takeAnswerFrame s f

/-- A frame of this node stripped at an arrival back (R161). -/
def strip (s : State) (f : Frame) : State :=
  match f.kind with
  | .cycle => copyReturned s f
  | .trip => s
  | .claim => ownClaimReturned s f
  | .tile => if f.dest = 0 then s else countConsole s fun c => { c with tileReturned := bump c.tileReturned }
  | .event => eventReturned s f
  | .refusal => countConsole s fun c => { c with refusalReturned := bump c.refusalReturned }
  | .request => if f.dest = 0 then s else requestReturned s f
  | .segment => countForward s fun c => { c with returned := bump c.returned }
  | .correction => countForward s fun c => { c with returned := bump c.returned }
  | .answer => countForward s fun c => { c with returned := bump c.returned }

/-- A frame of this node at an arrival back (R161): one that was turned back on the B side of a ring that has closed is
forwarded, any other is stripped. -/
def ownFrameBack (s : State) (p : PortId) (f : Frame) : State :=
  if f.kind != .cycle && f.kind != .trip && p == .b && s.forward.ring == .ring then forwardFrame s p f
  else strip s f

/-- A frame of another node at a node with an address (R160, R162). R160 lets a REFUSAL or ANSWER frame with
destination 0 be sent on and handed to the console unit; that its record is placed is DEDUCED (assumption 54). -/
def foreignFrame (s : State) (p : PortId) (f : Frame) : State :=
  if f.kind = .claim then takeClaim s p f
  else if f.dest = s.addressByte then consume s p f
  else if f.dest = 0 then consume (sendOn s p f) p f
  else sendOn s p f

/-- A frame at a node without an address (R163). -/
def passFrame (s : State) (p : PortId) (f : Frame) : State :=
  let s1 := forwardFrame s p f
  if f.kind = .cycle then takeCycleFrame s1 p f else s1

/-- A frame that passed R156 (R157 to R163). -/
def handleFrame (s : State) (p : PortId) (f : Frame) : State :=
  if f.hop = 0 then hopExpired s f
  else if !s.hasAddress then passFrame s p f
  else if f.origin = s.addressByte then ownFrameBack s p f
  else foreignFrame s p f

/-- The bytes of a frame complete on a port (R156, R187, R188): a port that is not UP takes nothing. A malformed frame counts as
received and not as an error (R188); R156's 'counts in no CRC window' is read of the CRC errors, which is what R156 counts in a
window (DEDUCED, assumption 55). -/
def frameArrived (s : State) (p : PortId) (bytes : List Byte) : State :=
  if !(s.port p).isUp then s
  else
    match receive bytes with
    | .error => countReceived s p true
    | .malformed =>
      countForward (countReceived s p false) fun c => { c with malformed := bump c.malformed }
    | .frame f => handleFrame (countReceived s p false) p f

end Sys2Proof.Machine
end

