-- ==== Sys2Proof/Machine/Settle.lean ====
section
/-!
DEFINITION. What follows a command within the same event: the choice of the next frame of a port that is not sending, where
one of its causes has happened (R166), the next segments (R112), the next delivery (R136), the source changes handed to the
trip unit (R59, R61), and the system tiles (R147).
-/
namespace Sys2Proof.Machine

/-! ### The choice of a port's next frame (R166) -/

/-- The owner of a started frame is told that it was handed to a port (R112): a source context counts its segment and places
its next one. The console unit and the agent read their waiting frames off the class queues (R142, R195). -/
def handedOver (s : State) : Owner → State
  | .segment i => placeSegment (segmentHanded s i) i
  | _ => s

/-- A class frame started, or held back (R166, R169), on the own-send port. -/
def startClass (s : State) (p : PortId) : State :=
  match s.forward.chooseClass s.now (s.port p).link.rate with
  | .nothing f => s.setForward f
  | .start e f => handedOver ((s.setForward f).setPort p ((s.port p).start s.now e.frame false e.closing)) e.owner

/-- The queue gained an entry: it is not the one before with entries taken away. -/
def gained {α : Type} [DecidableEq α] (before after : List α) : Bool := !after.isSublist before

/-- One of the four causes of a choice at port `p` has happened between two states (R166): the frame it was sending has ended, a
queue it serves has gained a frame, its own-send role has begun, or accounts and horizon have been renewed (DEDUCED,
assumption 60). -/
def choiceDue (s t : State) (p : PortId) : Bool :=
  let a := s.port p
  let b := t.port p
  (a.sending.isSome && b.sending.isNone)
    || gained a.trips b.trips || gained a.cycles b.cycles || gained a.transit b.transit
    || s.forward.renewals != t.forward.renewals
    || (ownSendPort t.forward.ring == some p
      && (ownSendPort s.forward.ring != some p || gained s.forward.management t.forward.management
        || gained s.forward.console t.forward.console || gained s.forward.image t.forward.image))

/-- The next frame of a port chosen, if it is UP and not sending (R166). -/
def choosePort (s : State) (p : PortId) : State :=
  let q := s.port p
  if !q.isUp || q.sending.isSome then s
  else
    match q.trips with
    | f :: rest => s.setPort p ({ q with trips := rest }.start s.now f false false)
    | [] =>
      match q.cycles with
      | f :: rest => s.setPort p ({ q with cycles := rest }.start s.now f false false)
      | [] =>
        match q.transit with
        | f :: rest => s.setPort p ({ q with transit := rest }.start s.now f true false)
        | [] => if ownSendPort s.forward.ring = some p then startClass s p else s

/-! ### Source changes (R59, R61) -/

/-- The sources 0 to 31 whose condition differs from what was handed, each as a change of its own, in ascending order. -/
def ownerChanges (old new : BitVec 64) : List SourceChange :=
  ((List.range 32).filter (fun k => old.getLsbD k != new.getLsbD k)).map
    (fun k => ⟨BitVec.twoPow 64 k, new &&& BitVec.twoPow 64 k⟩)

/-- The view sources that differ, together as one change (R61). -/
def viewChange (old new : BitVec 64) : List SourceChange :=
  let m := (old ^^^ new) &&& 0xFFFFFFFF00000000
  if m = 0 then [] else [⟨m, new &&& m⟩]

/-- The changes of conditions handed to the trip unit (R59, R61). -/
def handSources (s : State) : State :=
  let old := handedSources s.trip
  let new := conditions s
  s.setTrip { s.trip with changes := s.trip.changes ++ ownerChanges old new ++ viewChange old new }

/-! ### The end of a command -/

/-- The next frame of a port chosen if `due` says that a cause of a choice has happened; else an idle port stays idle (R166). -/
def choosePortIf (due : Bool) (t : State) (p : PortId) : State := if due then choosePort t p else t

/-- The segments, frame choices and delivery that a command's effect makes possible, the command having led from `s` to `t`. -/
def settleQueues (s t : State) : State :=
  let t1 := placeSegment (placeSegment t 0) 1
  let t2 := choosePortIf (choiceDue s t1 .b) (choosePortIf (choiceDue s t1 .a) t1 .a) .b
  t2.setImage (t2.image.arbitrate t2.now)

/-- The end of a command whose effect led from `s` to `t`: what the effect makes possible, the source changes handed, and the
system tiles written. -/
def settle (s t : State) : State := showStreams (showRing (showAxes (handSources (settleQueues s t))))

end Sys2Proof.Machine
end

