-- ==== Sys2Proof/Machine/Events.lean ====
section
/-!
DEFINITION. The meanings of the commands that are events: resets, frames and records that arrive, pins that change, and the
part's own timers. A command of a timer happens at its timer's instant; one whose event cannot occur in the present state
leaves the blocks as they are.
-/
namespace Sys2Proof.Machine

/-- A command of the outside that leads from `s` to `t`, with what follows it in the same event. While RESET is held the part stays
in reset, and only the clock and the levels of the outside move (R90). -/
def done (s t : State) : Host.Outcome State Fault Refusal :=
  .next (if s.resetHeld then t.inReset t.now else settle s t)

/-- A command of the part's own timers that leads from `s` to `t`, with what follows it in the same event. While RESET is held no
timer runs. -/
def timed (s t : State) : Host.Outcome State Fault Refusal := .next (if s.resetHeld then s else settle s t)

/-! ### Resets -/

/-- POWER_ON_RESET (R90, R192): `dt` later RESET is held low and the part goes into reset or stays in it (`none`), or the reset
ends with these straps at the strap pins. -/
def execPowerOnReset (dt : Nat) (straps : Option (BitVec 6)) (s : State) : Host.Outcome State Fault Refusal :=
  .next (match straps with
    | none => s.inReset (s.now + dt)
    | some b => State.afterReset (s.now + dt) b s.trip.pins s.image.lineValid s.console.holdIn s.pending)

/-- The reset of an executed NODE RESET, if one waits (R198). -/
def nodeReset (s : State) (straps : BitVec 6) : State :=
  match s.agent.resetWait with
  | some w =>
    State.afterReset (max s.now w.begins) straps s.trip.pins s.image.lineValid s.console.holdIn s.pending
  | none => s

/-- NODE_RESET_BEGIN (R198). -/
def execNodeResetBegin (straps : BitVec 6) (s : State) : Host.Outcome State Fault Refusal :=
  .next (if s.resetHeld then s else nodeReset s straps)

/-! ### The fibre -/

/-- FRAME_ARRIVAL (R156). -/
def execFrameArrival (dt : Nat) (port : PortId) (bytes : List Byte) (s : State) : Host.Outcome State Fault Refusal :=
  done s (frameArrived (s.elapse dt) port bytes)

/-- The frame a port is sending ends (R166, R198). -/
def frameEnded (s : State) (p : PortId) : State :=
  match (s.port p).sending with
  | some x =>
    let s1 := (s.reach x.ends).setPort p { s.port p with sending := none }
    if x.closing then closingSent s1 else s1
  | none => s

/-- PORT_FRAME_END (R166). -/
def execPortFrameEnd (port : PortId) (s : State) : Host.Outcome State Fault Refusal := timed s (frameEnded s port)

/-- The lock watchdog of a port in ACQUIRE runs out (R186). -/
def watchdogDue (s : State) (p : PortId) : State :=
  match (s.port p).link.watchdog with
  | some t => if (s.port p).link.state = .acquire then watchdogExpired (s.reach t) p else s
  | none => s

/-- LOCK_WATCHDOG_EXPIRY (R186). -/
def execLockWatchdogExpiry (port : PortId) (s : State) : Host.Outcome State Fault Refusal := timed s (watchdogDue s port)

/-- The retry timer of a port in ACQUIRE runs out (R186). -/
def retryDue (s : State) (p : PortId) : State :=
  match (s.port p).link.retry with
  | some t => if (s.port p).link.state = .acquire then retryExpired (s.reach t) p else s
  | none => s

/-- RETRY_TIMER_EXPIRY (R186). -/
def execRetryTimerExpiry (port : PortId) (s : State) : Host.Outcome State Fault Refusal := timed s (retryDue s port)

/-- WORD_LOCK_GAINED (R187). -/
def execWordLockGained (dt : Nat) (port : PortId) (s : State) : Host.Outcome State Fault Refusal :=
  done s (lockGained (s.elapse dt) port)

/-- IDENTITY_RECORD_IN (R187). -/
def execIdentityRecordIn (dt : Nat) (port : PortId) (bytes : List Byte) (s : State) : Host.Outcome State Fault Refusal :=
  done s (identityIn (s.elapse dt) port bytes)

/-- LOCK_LOST (R189). -/
def execLockLost (dt : Nat) (port : PortId) (s : State) : Host.Outcome State Fault Refusal :=
  done s (lockLost (s.elapse dt) port)

/-! ### The cycle -/

/-- A substitute cycle at its instant, at a node not in MASTER (R7). -/
def substituteNow (s : State) : State :=
  if s.election.state = .master then s else substituteCycle (s.reach s.cycle.substituteDue)

/-- SUBSTITUTE_CYCLE (R7). -/
def execSubstituteCycle (s : State) : Host.Outcome State Fault Refusal := timed s (substituteNow s)

/-- A master's cycle event at its instant (R19, R21). -/
def masterNow (s : State) : State :=
  if s.election.state = .master then masterEvent (s.reach s.cycle.expected) else s

/-- MASTER_CYCLE_EVENT (R21). -/
def execMasterCycleEvent (s : State) : Host.Outcome State Fault Refusal := timed s (masterNow s)

/-! ### The election -/

/-- The listen timer runs out in LISTENING (R176). -/
def listenDue (s : State) : State :=
  match s.election.listenTimer with
  | some t => if s.election.state = .listening then listenExpired (s.reach t) else s
  | none => s

/-- LISTEN_TIMER_EXPIRY (R176). -/
def execListenTimerExpiry (s : State) : Host.Outcome State Fault Refusal := timed s (listenDue s)

/-- The claim timer runs out in CLAIMING (R178). -/
def claimDue (s : State) : State :=
  match s.election.claimTimer with
  | some t => if s.election.state = .claiming then claimStep (s.reach t) else s
  | none => s

/-- CLAIM_TIMER_EXPIRY (R178). -/
def execClaimTimerExpiry (s : State) : Host.Outcome State Fault Refusal := timed s (claimDue s)

/-! ### The drive link -/

/-- The pending output instant arrives (R49). -/
def outputDue (s : State) : State :=
  match s.drive.next with
  | some x => beginPoll (s.reach x.instant) x
  | none => s

/-- OUTPUT_INSTANT (R49). -/
def execOutputInstant (s : State) : Host.Outcome State Fault Refusal := timed s (outputDue s)

/-- The last byte of a setpoint record is sent, and the answer window opens (R50). -/
def recordSent (s : State) : State :=
  match s.drive.poll with
  | some p =>
    match p.phase with
    | .sending e =>
      (s.reach e).setDrive { s.drive with poll := some { p with phase := .window (max s.now e + windowTime) } }
    | .window _ => s
  | none => s

/-- SETPOINT_RECORD_SENT (R50). -/
def execSetpointRecordSent (s : State) : Host.Outcome State Fault Refusal := timed s (recordSent s)

/-- The answer window closes with no record completed (R50). -/
def windowDue (s : State) : State :=
  match s.drive.poll with
  | some p =>
    match p.phase with
    | .window c => windowClosed (s.reach c) p
    | .sending _ => s
  | none => s

/-- ANSWER_WINDOW_CLOSE (R50). -/
def execAnswerWindowClose (s : State) : Host.Outcome State Fault Refusal := timed s (windowDue s)

/-- ACTUAL_RECORD (R51). -/
def execActualRecord (dt : Nat) (bytes : List Byte) (s : State) : Host.Outcome State Fault Refusal :=
  done s (actualReceived (s.elapse dt) bytes)

/-! ### The trip unit -/

/-- TRIP_INPUT_CHANGE (R60). -/
def execTripInputChange (dt : Nat) (pin : Fin 8) (high : Bool) (s : State) : Host.Outcome State Fault Refusal :=
  done s ((s.elapse dt).setTrip (s.trip.pinLevel pin.val high (s.now + dt)))

/-- The hold timer of a pin runs out (R60). -/
def holdDue (s : State) (pin : Nat) : State :=
  match s.trip.hold.getD pin none with
  | some t => (s.reach t).setTrip (s.trip.holdExpired pin)
  | none => s

/-- TRIP_INPUT_HOLD_EXPIRY (R60). -/
def execTripInputHoldExpiry (pin : Fin 8) (s : State) : Host.Outcome State Fault Refusal := timed s (holdDue s pin.val)

/-- TRIP_EVALUATION (R66, R67). -/
def execTripEvaluation (dt : Nat) (pick : Nat) (s : State) : Host.Outcome State Fault Refusal :=
  done s (takeChange (s.elapse dt) pick)

/-! ### The image unit -/

/-- The next scheduled trigger of a context is pulsed (R105). -/
def pulseDue (s : State) (i : Nat) : State :=
  let c := s.image.ctx i
  match c.work.triggers with
  | t :: rest =>
    let s1 := s.reach t.instant
    let u := s.image.setCtx i { c with work := { c.work with triggers := rest } }
    s1.setImage (u.pulse i t.point s1.now s.cycle.workingPeriod.time)
  | [] => s

/-- TRIGGER_PULSE (R105). -/
def execTriggerPulse (ctx : Fin 2) (s : State) : Host.Outcome State Fault Refusal := timed s (pulseDue s ctx.val)

/-- LINE_VALID_RISE (R106). -/
def execLineValidRise (dt : Nat) (input : Fin 2) (s : State) : Host.Outcome State Fault Refusal :=
  done s ((s.elapse dt).setImage (s.image.rise input.val))

/-- A capture of context `i` is taking pixels. -/
def capturing (u : ImageUnit) (i : Nat) : Bool := (u.ctx i).work.capture.any (·.intake)

/-- Line-valid falls on a context whose capture takes pixels (R109). -/
def captureFalls (s : State) (i : Nat) (tap0 tap1 : List (BitVec 16)) : State :=
  match (s.image.ctx i).work.capture with
  | some k => if k.intake then finishCapture (s.setImage (s.image.fall i)) i k tap0 tap1 else s
  | none => s

/-- CAPTURE_COMPLETE (R109): `tap0` and `tap1` are the pixels the camera gave since line-valid rose. -/
def execCaptureComplete (dt : Nat) (ctx : Fin 2) (tap0 tap1 : List (BitVec 16)) (s : State) :
    Host.Outcome State Fault Refusal := done s (captureFalls (s.elapse dt) ctx.val tap0 tap1)

/-- The capture limit ends a capture (R110): one that never saw line-valid rise has no pixels. -/
def captureDue (s : State) (i : Nat) (tap0 tap1 : List (BitVec 16)) : State :=
  match (s.image.ctx i).work.capture with
  | some k =>
    finishCapture (countTimeout (s.reach k.limit) i) i k (if k.intake then tap0 else []) (if k.intake then tap1 else [])
  | none => s

/-- CAPTURE_TIMEOUT (R110). -/
def execCaptureTimeout (ctx : Fin 2) (tap0 tap1 : List (BitVec 16)) (s : State) : Host.Outcome State Fault Refusal :=
  timed s (captureDue s ctx.val tap0 tap1)

/-- A line-valid input falls while no capture takes its pixels (R110). -/
def lineFalls (s : State) (i : Nat) : State := if capturing s.image i then s else s.setImage (s.image.fall i)

/-- LINE_VALID_FALL (R110). -/
def execLineValidFall (dt : Nat) (input : Fin 2) (s : State) : Host.Outcome State Fault Refusal :=
  done s (lineFalls (s.elapse dt) input.val)

/-- The last word of a delivery is taken, no earlier than its words can have been (R135). -/
def deliveryDue (s : State) : State :=
  match s.image.delivery with
  | some d => (s.reach d.earliest).setImage (s.image.delivered d (s.reach d.earliest).now)
  | none => s

/-- DELIVERY_END (R135). -/
def execDeliveryEnd (dt : Nat) (s : State) : Host.Outcome State Fault Refusal := done s (deliveryDue (s.elapse dt))

/-! ### The console port -/

/-- CONSOLE_RECORD_IN (R140): the record began `span` before its last byte arrives. -/
def execConsoleRecordIn (dt : Nat) (span : Nat) (bytes : List Byte) (s : State) : Host.Outcome State Fault Refusal :=
  done s (recordIn (s.elapse dt) span bytes)

/-- RECORD_ROUTING (R141). -/
def execRecordRouting (dt : Nat) (s : State) : Host.Outcome State Fault Refusal := done s (routeHead (s.elapse dt))

/-- CONSOLE_SEND_START (R149). -/
def execConsoleSendStart (dt : Nat) (s : State) : Host.Outcome State Fault Refusal :=
  done s ((s.elapse dt).setConsole s.console.transmit)

/-- CONSOLE_SEND_END (R149). -/
def execConsoleSendEnd (dt : Nat) (s : State) : Host.Outcome State Fault Refusal := done s (sendEnded (s.elapse dt))

/-- CONSOLE_HOLD_CHANGE (R149). -/
def execConsoleHoldChange (dt : Nat) (asserted : Bool) (s : State) : Host.Outcome State Fault Refusal :=
  done s ((s.elapse dt).setConsole { s.console with holdIn := asserted })

end Sys2Proof.Machine
end

