-- ==== Sys2Proof/Machine/Requests.lean ====
section
/-!
DEFINITION. The meanings of the commands that execute the request at the head of the agent's queue, WRITE requests aside
(R197).
-/
namespace Sys2Proof.Machine

/-- READ (R196). -/
def execRead (dt : Nat) (s : State) : Host.Outcome State Fault Refusal :=
  done s (execute (s.elapse dt) (fun r => r.isKind .read) .read actRead)

/-- READ_CLEAR (R196). -/
def execReadClear (dt : Nat) (s : State) : Host.Outcome State Fault Refusal :=
  done s (execute (s.elapse dt) (fun r => r.isKind .readClear) .readClear actReadClear)

/-! ### The trip unit (R70, R75, R77) -/

/-- The effect of a TRIP RESET (R75, R77). -/
def actTripReset (s : State) (r : Request) : Executed :=
  if r.data.length < 4 then refuse s .range
  else
    let s1 := tripReset s r.channelMask
    let again := s1.trip.own &&& r.channelMask
    if again = 0 then accept s1 else { status := .cause, data := .bytes (beBytes 4 again.toNat), state := s1 }

/-- TRIP_RESET (R75). -/
def execTripReset (dt : Nat) (s : State) : Host.Outcome State Fault Refusal :=
  done s (execute (s.elapse dt) (fun r => r.isKind .tripReset) .tripReset actTripReset)

/-- The effect of a TRIP COMMIT (R68 to R70). -/
def actTripCommit (s : State) (_ : Request) : Executed :=
  match tripCommit s with
  | (some i, s1) => { status := .malformed, data := .bytes [BitVec.ofNat 8 i], state := s1 }
  | (none, s1) => accept s1

/-- TRIP_COMMIT (R70). -/
def execTripCommit (dt : Nat) (s : State) : Host.Outcome State Fault Refusal :=
  done s (execute (s.elapse dt) (fun r => r.isKind .tripCommit) .tripCommit actTripCommit)

/-! ### AXIS requests (R35 to R39) -/

/-- The effect of an AXIS request whose command moves an entry by `move` (R35 to R39, R197). -/
def actAxis (move : AxisEntry → Status × AxisEntry) (s : State) (r : Request) : Executed :=
  match r.command with
  | none => refuse s .range
  | some _ =>
    let x := move (s.axis.entries.getD r.entry {})
    checked s x.1 (s.setAxis { s.axis with entries := s.axis.entries.set r.entry x.2 })

/-- The conditions on the node for ENGAGE (R36). -/
def engageReady (s : State) : Bool :=
  s.cycle.sync == .synced && (if s.election.state = .master then s.cycle.gen.v == 0 else s.cycle.vlast == 0)

/-- ENABLE (R35). -/
def execEnable (dt : Nat) (s : State) : Host.Outcome State Fault Refusal :=
  done s (execute (s.elapse dt) (fun r => r.commands .enable) .axis (actAxis AxisEntry.enableRequest))

/-- ENGAGE (R36). -/
def execEngage (dt : Nat) (s : State) : Host.Outcome State Fault Refusal :=
  done s (execute (s.elapse dt) (fun r => r.commands .engage) .axis
    (actAxis fun e => e.engageRequest (engageReady s) (groupStopped s.trip e.groupInUse)))

/-- STOP (R37). -/
def execStop (dt : Nat) (s : State) : Host.Outcome State Fault Refusal :=
  done s (execute (s.elapse dt) (fun r => r.commands .stop) .axis (actAxis AxisEntry.stopRequest))

/-- DISABLE (R38). -/
def execDisable (dt : Nat) (s : State) : Host.Outcome State Fault Refusal :=
  done s (execute (s.elapse dt) (fun r => r.commands .disable) .axis (actAxis AxisEntry.disableRequest))

/-- RELEASE (R39). -/
def execRelease (dt : Nat) (s : State) : Host.Outcome State Fault Refusal :=
  done s (execute (s.elapse dt) (fun r => r.commands .release) .axis (actAxis AxisEntry.releaseRequest))

/-! ### SET SPEED (R16) -/

/-- The generator after an accepted SET SPEED (R16), the target clamped with the J written last, which R14 lets act at the next cycle
event (DESIGN CHOICE, assumption 62). -/
def setSpeed (s : State) (v : Int) (a : Nat) : State :=
  s.setCycle { s.cycle with gen := { s.cycle.gen with accel := a, vt := clampMag s.cycle.jump v } }

/-- The effect of a SET SPEED (R16); the target that its answer carries is the clamped one (assumption 62). Which status is answered when
both of R16's checks fail, acceleration 0 at a node that is not master or with a MASTER_STOP channel in view, is not said: it is STATE
(DESIGN CHOICE, assumption 17). The bits of the answer's byte 4 beside the clamped mark are 0 (DESIGN CHOICE, assumption 83). -/
def actSetSpeed (s : State) (r : Request) : Executed :=
  if r.data.length < 6 then refuse s .range
  else if s.election.state != .master || masterStopInView s.trip then refuse s .state
  else if r.acceleration = 0 then refuse s .range
  else
    let vt := clampMag s.cycle.jump r.targetSpeed
    { status := .ok
      data := .bytes (beInt 4 vt ++ [if vt = r.targetSpeed then 0 else 1])
      state := setSpeed s r.targetSpeed r.acceleration }

/-- SET_SPEED (R16). -/
def execSetSpeed (dt : Nat) (s : State) : Host.Outcome State Fault Refusal :=
  done s (execute (s.elapse dt) (fun r => r.isKind .setSpeed) .setSpeed actSetSpeed)

/-! ### Restarts and resets -/

/-- STREAM_RESTART (R100, R137). -/
def execStreamRestart (dt : Nat) (s : State) : Host.Outcome State Fault Refusal :=
  done s (execute (s.elapse dt) (fun r => r.isKind .streamRestart) .streamRestart
    (fun x r => accept (restartContext x r.entry)))

/-- RETRAIN (R190). -/
def execRetrain (dt : Nat) (s : State) : Host.Outcome State Fault Refusal :=
  done s (execute (s.elapse dt) (fun r => r.isKind .retrain) .retrain (fun x r => retrainPort x r.portOf))

/-- The effect of a RING RESTART on the blocks (R182). -/
def ringRestart (s : State) : State := restartAll (tripRestart (flushQueues (electionRestart s)))

/-- RING_RESTART (R182). -/
def execRingRestart (dt : Nat) (s : State) : Host.Outcome State Fault Refusal :=
  done s (execute (s.elapse dt) (fun r => r.isKind .ringRestart) .ringRestart (fun x _ => accept (ringRestart x)))

/-- NODE_RESET (R198). -/
def execNodeReset (dt : Nat) (s : State) : Host.Outcome State Fault Refusal :=
  done s (execute (s.elapse dt) (fun r => r.isKind .nodeReset) .nodeReset actNodeReset)

/-- UNKNOWN_REQUEST_KIND (R194). -/
def execUnknownRequestKind (dt : Nat) (s : State) : Host.Outcome State Fault Refusal := done s (executeUnknown (s.elapse dt))

end Sys2Proof.Machine
end

