-- ==== Sys2Proof/Machine/Writes.lean ====
section
/-!
DEFINITION. The meanings of the commands that execute a WRITE request, item by item (chapter 13.2). The fields that the
request's data names come with the command (assumption 5); `none` stands for data too short, refused with RANGE (R197).
-/
namespace Sys2Proof.Machine

/-- The first status of a list of checks that is not OK. -/
def firstRefusal : List Status → Status
  | [] => .ok
  | .ok :: rest => firstRefusal rest
  | st :: _ => st

/-- A WRITE whose fields were read, or one too short for the fields it names (R197). -/
def writeFields {α : Type} (fields : Option α) (act : α → State → Request → Executed) (s : State) (r : Request) : Executed :=
  match fields with
  | some w => act w s r
  | none => refuse s .range

/-! ### Items without a row of their own (R64, R196) -/

/-- The item is only read (chapter 13.2). -/
def Item.readOnly : Item → Bool
  | .activeTerm => true
  | .view => true
  | .counters => true
  | _ => false

/-- A staging term written (R64). -/
def writeTerm (s : State) (i : Nat) (w : PlainWrite) : State :=
  s.setTrip { s.trip with
    staging := { s.trip.staging with terms := s.trip.staging.terms.modify i (fun t => t.applyWrite w) } }

/-- The staging length written (R64). -/
def writeLength (s : State) (w : PlainWrite) : State :=
  s.setTrip { s.trip with staging := { s.trip.staging with length := w.length.getD s.trip.staging.length } }

/-- The effect of a WRITE of a TERM or PROGRAM LENGTH item, or of one that is only read (R64). A WRITE of
the NODE item that comes here names its strap address, which is STATE, another field that may only be read, which is answered STATE too
(DESIGN CHOICE, assumption 82), or no field, which is answered STATE as well (DESIGN CHOICE, assumption 71). -/
def actPlainWrite (fields : Option PlainWrite) (s : State) (r : Request) : Executed :=
  if r.itemOf.any Item.readOnly then refuse s .state
  else
    writeFields fields (fun w s r =>
      match r.itemOf with
      | some .term => checked s (if PlainWrite.termInRange w then .ok else .range) (writeTerm s r.entry w)
      | some .programLength => checked s (if within w.length 0 128 then .ok else .range) (writeLength s w)
      | _ => refuse s .state) s r

/-- WRITE (R196). -/
def execWrite (dt : Nat) (fields : Option PlainWrite) (s : State) : Host.Outcome State Fault Refusal :=
  done s (execute (s.elapse dt) Request.writesPlain .write (actPlainWrite fields))

/-! ### The NODE item (R11, R14, R101, R171, R175, R194) -/

/-- The check of R171. -/
def checkAllowance (w : NodeWrite) : Status :=
  if within w.allowance 0 65535 && within w.consoleCap 0 65535 then .ok else .range

/-- The check of R194 on a new write-permit mask: it keeps the mark of the request's origin. -/
def checkPermit (s : State) (r : Request) (mask : Option (BitVec 62)) : Status :=
  match mask with
  | some m => if (r.loc && !s.hasAddress) || m.getLsbD (r.origin.toNat - 1) then .ok else .state
  | none => .ok

/-- The answer status of a WRITE of the NODE item: the checks of its blocks, in the order of chapter 13.2 (DESIGN CHOICE, assumption
16). A field that may only be read is STATE, whether it is the strap address or another (DESIGN CHOICE, assumption 82). -/
def checkNodeWrite (s : State) (r : Request) (w : NodeWrite) : Status :=
  firstRefusal [checkCycleWrite s w.cycle, s.image.checkDirection w.direction, s.image.checkTap w.tap, checkAllowance w,
    checkPriority s w.priority, checkPermit s r w.permit, if w.readOnly then .state else .ok]

/-- The image port settings written (R101). -/
def ImageUnit.applyWrite (u : ImageUnit) (w : NodeWrite) : ImageUnit :=
  { u with
    direction := (w.direction.getD (some u.direction)).getD u.direction
    tap := (w.tap.getD (some u.tap)).getD u.tap }

/-- The allowance settings written (R171): they act from the next cycle event. -/
def ForwardUnit.applyWrite (f : ForwardUnit) (w : NodeWrite) : ForwardUnit :=
  { f with allowance := w.allowance.getD f.allowance, consoleCap := w.consoleCap.getD f.consoleCap }

/-- The node after an accepted WRITE of the NODE item. -/
def applyNodeWrite (s : State) (w : NodeWrite) : State :=
  let s1 := s.setCycle (s.cycle.applyWrite w (s.election.state = .master))
  let s2 := s1.setImage (s1.image.applyWrite w)
  let s3 := s2.setForward (s2.forward.applyWrite w)
  let s4 := match w.priority with
    | some n => writePriority s3 n
    | none => s3
  s4.setAgent { s4.agent with permit := w.permit.getD s4.agent.permit }

/-- The effect of a WRITE of the NODE item. -/
def actNodeWrite (w : NodeWrite) (s : State) (r : Request) : Executed :=
  checked s (checkNodeWrite s r w) (applyNodeWrite s w)

/-- A WRITE of the NODE item executed, if its fields include those `names` asks for. -/
def nodeWrite (s : State) (fields : Option NodeWrite) (names : NodeWrite → Bool) : State :=
  execute s (fun r => r.writes .node && fields.all names) .write (writeFields fields actNodeWrite)

/-- NODE_SETTINGS_WRITE (R14). -/
def execNodeSettingsWrite (dt : Nat) (fields : Option NodeWrite) (s : State) : Host.Outcome State Fault Refusal :=
  done s (nodeWrite (s.elapse dt) fields NodeWrite.namesCycle)

/-- MASTER_JUMP_CLEAR (R11). -/
def execMasterJumpClear (dt : Nat) (fields : Option NodeWrite) (s : State) : Host.Outcome State Fault Refusal :=
  done s (nodeWrite (s.elapse dt) fields NodeWrite.namesJump)

/-- IMAGE_PORT_SETTING_WRITE (R101). -/
def execImagePortSettingWrite (dt : Nat) (fields : Option NodeWrite) (s : State) : Host.Outcome State Fault Refusal :=
  done s (nodeWrite (s.elapse dt) fields NodeWrite.namesImage)

/-- ALLOWANCE_SETTING_WRITE (R171). -/
def execAllowanceSettingWrite (dt : Nat) (fields : Option NodeWrite) (s : State) : Host.Outcome State Fault Refusal :=
  done s (nodeWrite (s.elapse dt) fields NodeWrite.namesAllowance)

/-- PRIORITY_WRITE (R175). -/
def execPriorityWrite (dt : Nat) (fields : Option NodeWrite) (s : State) : Host.Outcome State Fault Refusal :=
  done s (nodeWrite (s.elapse dt) fields (fun w => w.priority.isSome))

/-- WRITE_PERMIT_MASK_WRITE (R194). -/
def execWritePermitMaskWrite (dt : Nat) (fields : Option NodeWrite) (s : State) : Host.Outcome State Fault Refusal :=
  done s (nodeWrite (s.elapse dt) fields (fun w => w.permit.isSome))

/-! ### The AXIS item (R23 to R25, R41, R42) -/

/-- The effect of a WRITE of an AXIS item. -/
def actAxisWrite (w : AxisWrite) (s : State) (r : Request) : Executed :=
  let e := s.axis.entries.getD r.entry {}
  checked s (e.checkWrite w (groupStopped s.trip))
    (s.setAxis { s.axis with entries := s.axis.entries.set r.entry (e.applyWrite w) })

/-- A WRITE of an AXIS item executed, if its fields include those `names` asks for. -/
def axisItemWrite (s : State) (fields : Option AxisWrite) (names : AxisWrite → Bool) : State :=
  execute s (fun r => r.writes .axis && fields.all names) .write (writeFields fields actAxisWrite)

/-- AXIS_WRITE (R23). -/
def execAxisWrite (dt : Nat) (fields : Option AxisWrite) (s : State) : Host.Outcome State Fault Refusal :=
  done s (axisItemWrite (s.elapse dt) fields (fun _ => true))

/-- OFFSET_WRITE (R24). -/
def execOffsetWrite (dt : Nat) (fields : Option AxisWrite) (s : State) : Host.Outcome State Fault Refusal :=
  done s (axisItemWrite (s.elapse dt) fields AxisWrite.namesOffset)

/-- CMAX_WRITE (R25). -/
def execCmaxWrite (dt : Nat) (fields : Option AxisWrite) (s : State) : Host.Outcome State Fault Refusal :=
  done s (axisItemWrite (s.elapse dt) fields (fun w => w.corrMax.isSome))

/-- AXIS_FLAG_CLEAR (R41). -/
def execAxisFlagClear (dt : Nat) (fields : Option AxisWrite) (s : State) : Host.Outcome State Fault Refusal :=
  done s (axisItemWrite (s.elapse dt) fields (fun w => w.clear.isSome))

/-- AXIS_MASK_WRITE (R42). -/
def execAxisMaskWrite (dt : Nat) (fields : Option AxisWrite) (s : State) : Host.Outcome State Fault Refusal :=
  done s (axisItemWrite (s.elapse dt) fields (fun w => w.mask.isSome))

/-! ### The ACTION item (R88) -/

/-- The effect of a WRITE of an ACTION item. -/
def actActionWrite (w : ActionWrite) (s : State) (r : Request) : Executed :=
  checked s ((s.trip.actions.getD r.entry {}).checkWrite w) (writeAction s r.entry w)

/-- ACTION_WRITE (R88). -/
def execActionWrite (dt : Nat) (fields : Option ActionWrite) (s : State) : Host.Outcome State Fault Refusal :=
  done s (execute (s.elapse dt) (fun r => r.writes .action) .write (writeFields fields actActionWrite))

/-! ### The STREAM item (R98 to R100) -/

/-- The write names mode SOURCE or SINK. -/
def StreamWrite.turnsOn (w : StreamWrite) : Bool := w.mode == some (some .source) || w.mode == some (some .sink)

/-- The write names mode OFF. -/
def StreamWrite.turnsOff (w : StreamWrite) : Bool := w.mode == some (some .off)

/-- The effect of a WRITE of a STREAM item. -/
def actStreamWrite (w : StreamWrite) (s : State) (r : Request) : Executed :=
  checked s (checkStreamWrite s r.entry w) (writeStream s r.entry w)

/-- A WRITE of a STREAM item executed, if its mode is as `asks` says. -/
def streamItemWrite (s : State) (fields : Option StreamWrite) (asks : StreamWrite → Bool) : State :=
  execute s (fun r => r.writes .stream && fields.all asks) .write (writeFields fields actStreamWrite)

/-- STREAM_WRITE (R98). -/
def execStreamWrite (dt : Nat) (fields : Option StreamWrite) (s : State) : Host.Outcome State Fault Refusal :=
  done s (streamItemWrite (s.elapse dt) fields (fun w => !StreamWrite.turnsOn w && !StreamWrite.turnsOff w))

/-- STREAM_MODE_ON (R99). -/
def execStreamModeOn (dt : Nat) (fields : Option StreamWrite) (s : State) : Host.Outcome State Fault Refusal :=
  done s (streamItemWrite (s.elapse dt) fields StreamWrite.turnsOn)

/-- STREAM_MODE_OFF (R100). -/
def execStreamModeOff (dt : Nat) (fields : Option StreamWrite) (s : State) : Host.Outcome State Fault Refusal :=
  done s (streamItemWrite (s.elapse dt) fields StreamWrite.turnsOff)

/-! ### The MARK, TILE and PORT items (R116, R146, R190) -/

/-- The effect of a WRITE of a MARK item. -/
def actMarkWrite (w : MarkWrite) (s : State) (r : Request) : Executed :=
  checked s ((s.mark.entries.getD r.entry {}).record.checkWrite w)
    (s.setMark ⟨s.mark.entries.modify r.entry (fun m => m.applyWrite w)⟩)

/-- MARK_WRITE (R116). -/
def execMarkWrite (dt : Nat) (fields : Option MarkWrite) (s : State) : Host.Outcome State Fault Refusal :=
  done s (execute (s.elapse dt) (fun r => r.writes .mark) .write (writeFields fields actMarkWrite))

/-- The effect of a WRITE of a TILE item. -/
def actTileWrite (w : TileWrite) (s : State) (r : Request) : Executed :=
  checked s (checkTileWrite r.entry w) (s.setConsole (s.console.writePermitted r.entry w))

/-- TILE_WRITE (R146). -/
def execTileWrite (dt : Nat) (fields : Option TileWrite) (s : State) : Host.Outcome State Fault Refusal :=
  done s (execute (s.elapse dt) (fun r => r.writes .tile) .write (writeFields fields actTileWrite))

/-- The answer status of a WRITE of a PORT item (R190): RANGE for a value that is not named, STATE for a field that may only be read
(DESIGN CHOICE, assumption 82). -/
def checkPortWrite (w : PortWrite) : Status :=
  if w.enable = some none then .range else if w.readOnly then .state else .ok

/-- The effect of a WRITE of a PORT item (R190). One that names no field is answered OK and changes nothing (DESIGN CHOICE,
assumption 58). -/
def actPortWrite (w : PortWrite) (s : State) (r : Request) : Executed :=
  checked s (checkPortWrite w) (match w.enable with
    | some (some on) => writeEnable s r.portOf on
    | _ => s)

/-- PORT_ENABLE_WRITE (R190). -/
def execPortEnableWrite (dt : Nat) (fields : Option PortWrite) (s : State) : Host.Outcome State Fault Refusal :=
  done s (execute (s.elapse dt) (fun r => r.writes .port) .write (writeFields fields actPortWrite))

end Sys2Proof.Machine
end

