-- ==== Sys2Proof/Machine/Dispatch.lean ====
section
/-!
DEFINITION. The meaning of every command: one arm for each row of spec/opcode_table.json, in the table's order.
-/
namespace Sys2Proof.Machine

/-- What a command does to everything but the queue of waiting commands. -/
def exec (i : Instr) (s : State) : Host.Outcome State Fault Refusal :=
  match i with
  | .powerOnReset dt straps => Sys2Proof.Machine.execPowerOnReset dt straps s
  | .nodeResetBegin straps => Sys2Proof.Machine.execNodeResetBegin straps s
  | .frameArrival dt port bytes => Sys2Proof.Machine.execFrameArrival dt port bytes s
  | .substituteCycle => Sys2Proof.Machine.execSubstituteCycle s
  | .masterCycleEvent => Sys2Proof.Machine.execMasterCycleEvent s
  | .outputInstant => Sys2Proof.Machine.execOutputInstant s
  | .setpointRecordSent => Sys2Proof.Machine.execSetpointRecordSent s
  | .answerWindowClose => Sys2Proof.Machine.execAnswerWindowClose s
  | .actualRecord dt bytes => Sys2Proof.Machine.execActualRecord dt bytes s
  | .tripInputChange dt pin high => Sys2Proof.Machine.execTripInputChange dt pin high s
  | .tripInputHoldExpiry pin => Sys2Proof.Machine.execTripInputHoldExpiry pin s
  | .tripEvaluation dt pick => Sys2Proof.Machine.execTripEvaluation dt pick s
  | .triggerPulse ctx => Sys2Proof.Machine.execTriggerPulse ctx s
  | .lineValidRise dt input => Sys2Proof.Machine.execLineValidRise dt input s
  | .captureComplete dt ctx tap0 tap1 => Sys2Proof.Machine.execCaptureComplete dt ctx tap0 tap1 s
  | .captureTimeout ctx tap0 tap1 => Sys2Proof.Machine.execCaptureTimeout ctx tap0 tap1 s
  | .deliveryEnd dt => Sys2Proof.Machine.execDeliveryEnd dt s
  | .consoleRecordIn dt span bytes => Sys2Proof.Machine.execConsoleRecordIn dt span bytes s
  | .recordRouting dt => Sys2Proof.Machine.execRecordRouting dt s
  | .consoleSendStart dt => Sys2Proof.Machine.execConsoleSendStart dt s
  | .consoleSendEnd dt => Sys2Proof.Machine.execConsoleSendEnd dt s
  | .consoleHoldChange dt asserted => Sys2Proof.Machine.execConsoleHoldChange dt asserted s
  | .portFrameEnd port => Sys2Proof.Machine.execPortFrameEnd port s
  | .listenTimerExpiry => Sys2Proof.Machine.execListenTimerExpiry s
  | .claimTimerExpiry => Sys2Proof.Machine.execClaimTimerExpiry s
  | .lockWatchdogExpiry port => Sys2Proof.Machine.execLockWatchdogExpiry port s
  | .retryTimerExpiry port => Sys2Proof.Machine.execRetryTimerExpiry port s
  | .wordLockGained dt port => Sys2Proof.Machine.execWordLockGained dt port s
  | .identityRecordIn dt port bytes => Sys2Proof.Machine.execIdentityRecordIn dt port bytes s
  | .lockLost dt port => Sys2Proof.Machine.execLockLost dt port s
  | .read dt => Sys2Proof.Machine.execRead dt s
  | .readClear dt => Sys2Proof.Machine.execReadClear dt s
  | .write dt fields => Sys2Proof.Machine.execWrite dt fields s
  | .nodeSettingsWrite dt fields => Sys2Proof.Machine.execNodeSettingsWrite dt fields s
  | .masterJumpClear dt fields => Sys2Proof.Machine.execMasterJumpClear dt fields s
  | .imagePortSettingWrite dt fields => Sys2Proof.Machine.execImagePortSettingWrite dt fields s
  | .allowanceSettingWrite dt fields => Sys2Proof.Machine.execAllowanceSettingWrite dt fields s
  | .priorityWrite dt fields => Sys2Proof.Machine.execPriorityWrite dt fields s
  | .writePermitMaskWrite dt fields => Sys2Proof.Machine.execWritePermitMaskWrite dt fields s
  | .axisWrite dt fields => Sys2Proof.Machine.execAxisWrite dt fields s
  | .offsetWrite dt fields => Sys2Proof.Machine.execOffsetWrite dt fields s
  | .cmaxWrite dt fields => Sys2Proof.Machine.execCmaxWrite dt fields s
  | .axisFlagClear dt fields => Sys2Proof.Machine.execAxisFlagClear dt fields s
  | .axisMaskWrite dt fields => Sys2Proof.Machine.execAxisMaskWrite dt fields s
  | .actionWrite dt fields => Sys2Proof.Machine.execActionWrite dt fields s
  | .streamWrite dt fields => Sys2Proof.Machine.execStreamWrite dt fields s
  | .streamModeOn dt fields => Sys2Proof.Machine.execStreamModeOn dt fields s
  | .streamModeOff dt fields => Sys2Proof.Machine.execStreamModeOff dt fields s
  | .markWrite dt fields => Sys2Proof.Machine.execMarkWrite dt fields s
  | .tileWrite dt fields => Sys2Proof.Machine.execTileWrite dt fields s
  | .portEnableWrite dt fields => Sys2Proof.Machine.execPortEnableWrite dt fields s
  | .tripReset dt => Sys2Proof.Machine.execTripReset dt s
  | .tripCommit dt => Sys2Proof.Machine.execTripCommit dt s
  | .enable dt => Sys2Proof.Machine.execEnable dt s
  | .engage dt => Sys2Proof.Machine.execEngage dt s
  | .stop dt => Sys2Proof.Machine.execStop dt s
  | .disable dt => Sys2Proof.Machine.execDisable dt s
  | .release dt => Sys2Proof.Machine.execRelease dt s
  | .setSpeed dt => Sys2Proof.Machine.execSetSpeed dt s
  | .streamRestart dt => Sys2Proof.Machine.execStreamRestart dt s
  | .retrain dt => Sys2Proof.Machine.execRetrain dt s
  | .ringRestart dt => Sys2Proof.Machine.execRingRestart dt s
  | .nodeReset dt => Sys2Proof.Machine.execNodeReset dt s
  | .lineValidFall dt input => Sys2Proof.Machine.execLineValidFall dt input s
  | .unknownRequestKind dt => Sys2Proof.Machine.execUnknownRequestKind dt s

end Sys2Proof.Machine
end

