-- ==== Sys2Proof/Machine/Step.lean ====
section
/-!
DEFINITION. One step of the FN-420: the command at the front of the queue, or idling; and the placing of a command that a
word spells.
-/
namespace Sys2Proof.Machine

/-- The state with `l` as the queue of waiting commands. -/
def State.withPending (s : State) (l : List Instr) : State := { s with pending := l }

/-- One step: the command at the front of the queue is taken and run with the queue's rest; with none the part idles (assumption 1). -/
def step (s : State) : Host.Outcome State Fault Refusal :=
  match s.pending with
  | c :: rest => exec c (s.withPending rest)
  | [] => .next s

/-- The state with the command that a word spells put at the front of the queue; unchanged where the word spells none. -/
def State.withFetchWord (s : State) (nbits w : Nat) : State :=
  match decodeTableWord nbits w with
  | some c => s.withPending (c :: s.pending)
  | none => s

end Sys2Proof.Machine
end

