-- ==== Sys2Proof/Safety.lean ====
section
/-!
DEFINITION. The terms that claims about the FN-420 are stated in: what a step may change and what it leaves (frames, block by
block), the answer a request gets, and the laws of the device as properties of one state.
-/
namespace Sys2Proof.Machine

/-! ### Safe runs -/

/-- A property that every step keeps. -/
def StepKeeps (P : State → Prop) : Prop := ∀ s t, P s → step s = .next t → P t

/-- The states of a run: from reset, a command arrives at the tail of the queue or a step is taken. -/
inductive Reachable : State → Prop where
  | reset : Reachable State.reset
  | arrival (s : State) (c : Instr) : Reachable s → Reachable (s.withPending (s.pending ++ [c]))
  | step (s t : State) : Reachable s → step s = .next t → Reachable t

/-- A run is safe in a state: the next step neither faults nor refuses. -/
def Safe (s : State) : Prop := ∃ t, step s = .next t

/-- The command answers a next state for which `p` holds. -/
def Answers (c : Instr) (s : State) (p : State → Prop) : Prop := ∃ t, exec c s = .next t ∧ p t

/-- With RESET not held (R90), the command answers a next state for which `p` holds. -/
def Completes (c : Instr) (s : State) (p : State → Prop) : Prop := s.resetHeld = false → Answers c s p

/-! ### Frames

At the end of every command the part hands source changes on, writes system tiles 253 to 255, places segments, starts frames
and starts a delivery (`settle`). The `still` form of a block leaves out exactly what that can change in it. -/

def TripUnit.still (t : TripUnit) : TripUnit := { t with changes := [] }

def StreamContext.still (c : StreamContext) : StreamContext :=
  { c with
    work := { c.work with read := 0, held := 0, segmentsDone := 0 }
    counters := { c.counters with segmentsSent := 0 } }

def ImageUnit.still (u : ImageUnit) : ImageUnit :=
  { u with contexts := u.contexts.map StreamContext.still, delivery := none, lastServed := 0 }

/-- The console unit without what the system tiles show. -/
def ConsoleUnit.still (u : ConsoleUnit) : ConsoleUnit :=
  { u with
    tiles := (((u.tiles.set 252 {}).set 253 {}).set 254 {}).set 255 {}
    systemQueue := [] }

def ForwardUnit.still (f : ForwardUnit) : ForwardUnit :=
  { f with
    management := []
    console := []
    image := []
    managementUsed := 0
    consoleUsed := 0
    sharedUsed := 0
    horizonHeld := false
    counters := { f.counters with imageOverflow := 0, horizonHold := 0 } }

def FibrePort.still (p : FibrePort) : FibrePort := { p with trips := [], cycles := [], transit := [], sending := none }

/-- The blocks of the part. -/
inductive Block where
  | cycle
  | axis
  | drive
  | trip
  | image
  | mark
  | console
  | forward
  | election
  | portA
  | portB
  | agent
  deriving DecidableEq, Repr

/-- The block of a fibre port. -/
def portBlock : PortId → Block
  | .a => .portA
  | .b => .portB

/-- A block is the same in two states, up to what the end of a command changes by itself. -/
def Block.same : Block → State → State → Prop
  | .cycle, s, t => t.cycle = s.cycle
  | .axis, s, t => t.axis = s.axis
  | .drive, s, t => t.drive = s.drive
  | .trip, s, t => t.trip.still = s.trip.still
  | .image, s, t => t.image.still = s.image.still
  | .mark, s, t => t.mark = s.mark
  | .console, s, t => t.console.still = s.console.still
  | .forward, s, t => t.forward.still = s.forward.still
  | .election, s, t => t.election = s.election
  | .portA, s, t => t.portA.still = s.portA.still
  | .portB, s, t => t.portB.still = s.portB.still
  | .agent, s, t => t.agent = s.agent

/-- Every block but those of the list is the same, and so are the address, the level of RESET, the instant of the last reset and the
queue of waiting commands. -/
def KeepsAllBut (changed : List Block) (s t : State) : Prop :=
  (∀ b, b ∉ changed → b.same s t) ∧ t.straps = s.straps ∧ t.resetEnd = s.resetEnd ∧ t.pending = s.pending ∧
    t.resetHeld = s.resetHeld

/-- Every entry of a table but entry `i` is the same. -/
def KeepsEntriesBut {α : Type} {n : Nat} (i : Nat) (a b : Table α n) : Prop := ∀ j, j ≠ i → b.get? j = a.get? j

/-- Line memory reads the same at every address for which `p` does not hold. -/
def ReadsAsBefore (p : Nat → Prop) (m n : Memory) : Prop := ∀ a, ¬p a → n.read a = m.read a

/-- The bytes are a frame `f` that passes the checks of R156 and R157 on a port that is UP. -/
def Arrives (s : State) (p : PortId) (bytes : List Byte) (f : Frame) : Prop :=
  (s.port p).link.state = .up ∧ (s.port p).link.errors < 8 ∧ receive bytes = .frame f ∧ f.hop ≠ 0

/-! ### Requests -/

/-- The request `r` is at the head of the agent's queue with `rest` behind it, the agent can execute, the request is of kind
`k`, and its origin may make it (R194). -/
def Due (s : State) (r : Request) (rest : List Request) (k : RequestKind) : Prop :=
  s.agent.queue = r :: rest ∧ agentFree s = true ∧ r.kindOf = some k ∧ (k = .read ∨ permitted s r = true)

/-- The request names entry `r.entry` of item `i`, which the item has (R194). -/
def Names (r : Request) (i : Item) : Prop := r.itemOf = some i ∧ r.entry < i.entries

/-- The agent's part of an execution whose answer is neither DENIED nor UNKNOWN: the head is removed (R194). -/
def TakenFromQueue (s t : State) (rest : List Request) : Prop := t.agent = { s.agent with queue := rest }

/-- The answer frame of a request of another node (R195). -/
def answerEntry (s : State) (r : Request) (st : Status) (data : AnswerData) (closing : Bool) : ClassEntry :=
  ⟨Frame.own s.addressByte .answer r.origin (answerPayload r.tag st data), .answer closing⟩

/-- The ANSWER record of a request of the node's own console (R195). -/
def answerRecord (s : State) (r : Request) (st : Status) (data : AnswerData) (closing : Bool) : Reply :=
  .answer r.tag (answeringNode s) st.code data closing

/-- `x` joined the tail of a queue of a port or of the class queues (R164 to R166), as the command leaves it: `after` is the queue then,
unless its head has itself started on a port. -/
def Queued {α : Type} (before after : List α) (x : α) (frame : α → Frame) (t : State) : Prop :=
  after = before ++ [x]
    ∨ (after = (before ++ [x]).tail ∧
        ∃ p y h, (t.port p).sending = some y ∧ (before ++ [x]).head? = some h ∧ y.frame = frame h)

/-- An entry placed in the management class queue, as the command leaves it, unless it was lost because the queue held 16 (R165). -/
def PlacedInManagement (before : List ClassEntry) (e : ClassEntry) (t : State) : Prop :=
  before.length < 16 → Queued before t.forward.management e ClassEntry.frame t

/-- The request was answered (R195): a local one by a record in the reply queue, any other by an answer frame placed behind the
management class frames `before`. -/
def Answered (s t : State) (before : List ClassEntry) (r : Request) (st : Status) (data : AnswerData) (closing : Bool) : Prop :=
  if r.loc then
    t.console.still = (s.console.reply (answerRecord s r st data closing)).still ∧ Block.forward.same s t
  else
    PlacedInManagement before (answerEntry s r st data closing) t ∧
      t.forward.still = (s.forward.place .management (answerEntry s r st data closing)).still ∧ Block.console.same s t

/-- A request refused by its owning block: it is removed and answered, and nothing else changes (R194). -/
def Refused (s t : State) (r : Request) (rest : List Request) (st : Status) : Prop :=
  TakenFromQueue s t rest ∧ Answered s t s.forward.management r st noData false ∧ KeepsAllBut [.agent, .console, .forward] s t

/-- A request about one axis was answered `st` and left its entry at `e` (R35 to R39, R23): no other axis, no counter and no other
block changes. -/
def AxisAnswered (s t : State) (r : Request) (rest : List Request) (st : Status) (e : AxisEntry) : Prop :=
  TakenFromQueue s t rest ∧ Answered s t s.forward.management r st noData false ∧
  t.axis.entries.get? r.entry = some e ∧ KeepsEntriesBut r.entry s.axis.entries t.axis.entries ∧
  t.axis.counters = s.axis.counters ∧ KeepsAllBut [.axis, .agent, .console, .forward] s t

/-- The commands that execute a queued request, each with the request kind it executes and the requests it is about (R197). -/
def rowOf : Instr → Option (RequestKind × (Request → Bool))
  | .read _ => some (.read, fun r => r.isKind .read)
  | .readClear _ => some (.readClear, fun r => r.isKind .readClear)
  | .write _ _ => some (.write, Request.writesPlain)
  | .nodeSettingsWrite _ w => some (.write, fun r => r.writes .node && w.all NodeWrite.namesCycle)
  | .masterJumpClear _ w => some (.write, fun r => r.writes .node && w.all NodeWrite.namesJump)
  | .imagePortSettingWrite _ w => some (.write, fun r => r.writes .node && w.all NodeWrite.namesImage)
  | .allowanceSettingWrite _ w => some (.write, fun r => r.writes .node && w.all NodeWrite.namesAllowance)
  | .priorityWrite _ w => some (.write, fun r => r.writes .node && w.all fun x => x.priority.isSome)
  | .writePermitMaskWrite _ w => some (.write, fun r => r.writes .node && w.all fun x => x.permit.isSome)
  | .axisWrite _ _ => some (.write, fun r => r.writes .axis)
  | .offsetWrite _ w => some (.write, fun r => r.writes .axis && w.all AxisWrite.namesOffset)
  | .cmaxWrite _ w => some (.write, fun r => r.writes .axis && w.all fun x => x.corrMax.isSome)
  | .axisFlagClear _ w => some (.write, fun r => r.writes .axis && w.all fun x => x.clear.isSome)
  | .axisMaskWrite _ w => some (.write, fun r => r.writes .axis && w.all fun x => x.mask.isSome)
  | .actionWrite _ _ => some (.write, fun r => r.writes .action)
  | .streamWrite _ w => some (.write, fun r => r.writes .stream && w.all fun x => x.mode.all Option.isNone)
  | .streamModeOn _ w => some (.write, fun r => r.writes .stream && w.all fun x => x.mode.any fun m => m.any fun k => k != .off)
  | .streamModeOff _ w => some (.write, fun r => r.writes .stream && w.all fun x => x.mode == some (some .off))
  | .markWrite _ _ => some (.write, fun r => r.writes .mark)
  | .tileWrite _ _ => some (.write, fun r => r.writes .tile)
  | .portEnableWrite _ _ => some (.write, fun r => r.writes .port)
  | .tripReset _ => some (.tripReset, fun r => r.isKind .tripReset)
  | .tripCommit _ => some (.tripCommit, fun r => r.isKind .tripCommit)
  | .enable _ => some (.axis, fun r => r.commands .enable)
  | .engage _ => some (.axis, fun r => r.commands .engage)
  | .stop _ => some (.axis, fun r => r.commands .stop)
  | .disable _ => some (.axis, fun r => r.commands .disable)
  | .release _ => some (.axis, fun r => r.commands .release)
  | .setSpeed _ => some (.setSpeed, fun r => r.isKind .setSpeed)
  | .streamRestart _ => some (.streamRestart, fun r => r.isKind .streamRestart)
  | .retrain _ => some (.retrain, fun r => r.isKind .retrain)
  | .ringRestart _ => some (.ringRestart, fun r => r.isKind .ringRestart)
  | .nodeReset _ => some (.nodeReset, fun r => r.isKind .nodeReset)
  | _ => none

/-- The commands that execute a WRITE whose data is too short for the fields it names (R197). -/
def isShortWrite : Instr → Bool
  | .write _ none => true
  | .nodeSettingsWrite _ none => true
  | .masterJumpClear _ none => true
  | .imagePortSettingWrite _ none => true
  | .allowanceSettingWrite _ none => true
  | .priorityWrite _ none => true
  | .writePermitMaskWrite _ none => true
  | .axisWrite _ none => true
  | .offsetWrite _ none => true
  | .cmaxWrite _ none => true
  | .axisFlagClear _ none => true
  | .axisMaskWrite _ none => true
  | .actionWrite _ none => true
  | .streamWrite _ none => true
  | .streamModeOn _ none => true
  | .streamModeOff _ none => true
  | .markWrite _ none => true
  | .tileWrite _ none => true
  | .portEnableWrite _ none => true
  | _ => false

/-! ### The queues of the ports and the class queues (R164 to R168)

`settle` and the commands move entries through these queues, which a `still` form leaves out: what is placed in one, what starts from one,
and what becomes of the rest is said here of every command. -/

/-- The queue that a frame starts from: one of the port's own three, or a class queue. -/
inductive Supply where
  | trips
  | cycles
  | transit
  | ofClass (c : FrameClass)
  deriving DecidableEq, Repr

/-- The commands that can place a frame in a queue: frames that arrive; what evaluates the active program (R72); a master's cycle event
(R1); what places a claim (R178), a correction frame (R122), an answer (R193, R195) or a frame of the console unit (R142). Segments are
placed at the end of any command (R112). -/
def mayPlace (c : Instr) : Supply → Bool
  | .trips => match c with
    | .frameArrival _ _ _ => true
    | .tripEvaluation _ _ => true
    | .tripCommit _ => true
    | .tripReset _ => true
    | _ => false
  | .cycles => match c with
    | .frameArrival _ _ _ => true
    | .masterCycleEvent => true
    | _ => false
  | .transit => match c with
    | .frameArrival _ _ _ => true
    | _ => false
  | .ofClass .management => (rowOf c).isSome || match c with
    | .frameArrival _ _ _ => true
    | .substituteCycle => true
    | .listenTimerExpiry => true
    | .claimTimerExpiry => true
    | .captureComplete _ _ _ _ => true
    | .captureTimeout _ _ _ => true
    | .recordRouting _ => true
    | .unknownRequestKind _ => true
    | _ => false
  | .ofClass .console => match c with
    | .frameArrival _ _ _ => true
    | .recordRouting _ => true
    | _ => false
  | .ofClass .image => true

/-- The queue `before` became `after`: at most `room` entries were placed behind it, and `taken` is the frame of its head that then
started, if one did. -/
def QueueMoved {α : Type} (before after : List α) (frame : α → Frame) (room : Nat) (taken : Option Frame) : Prop :=
  ∃ placed : List α, placed.length ≤ room ∧ (taken = none → after = before ++ placed) ∧
    ∀ f, taken = some f → ∃ h, before ++ placed = h :: after ∧ frame h = f

/-- Room for one entry in a queue that holds `n` of at most `bound`, where there may be one. -/
def roomForOne (may : Bool) (n bound : Nat) : Nat := if may = true ∧ n < bound then 1 else 0

/-- The class queues, which stood at `before`, had room for so many entries of each class and were charged to `accounts` (management,
console, shared), when `started` gave the own-send port its next frame (R165, R166, R168): what was placed is behind, the head that started
is removed and charged to its accounts, and the rest stays. In the image class queue a segment of a context is placed where two are not
waiting, and once more behind a started frame (R112). -/
def ClassQueuesMoved (before : FrameClass → List ClassEntry) (room : FrameClass → Nat) (accounts : Nat × Nat × Nat) (t : State)
    (started : Option FrameClass) : Prop :=
  let g := t.forward
  let frame : Option Frame := (ownSendPort g.ring).bind fun p => (t.port p).sending.map Sending.frame
  let taken (c : FrameClass) : Option Frame := if started = some c then frame else none
  let length (c : FrameClass) : Nat := ((taken c).map Frame.length).getD 0
  (started ≠ none → frame ≠ none) ∧
  QueueMoved (before .management) g.management ClassEntry.frame (room .management) (taken .management) ∧
  QueueMoved (before .console) g.console ClassEntry.frame (room .console) (taken .console) ∧
  (∃ segments rest again : List ClassEntry, (∀ e ∈ segments ++ again, ∃ i, i < 8 ∧ e.owner = .segment i) ∧
    QueueMoved (before .image ++ segments) rest ClassEntry.frame 0 (taken .image) ∧ segments.length ≤ room .image ∧
    again.length ≤ 1 ∧ (started = none → again = []) ∧ g.image = rest ++ again) ∧
  g.managementUsed = accounts.1 + length .management ∧
  g.consoleUsed = accounts.2.1 + length .console ∧
  g.sharedUsed = accounts.2.2 + length .console + length .image

/-- The class queues, accounts and horizon-hold mark through an event that forms the ring state anew (R158, R165, R167, R169): they stay for
the port that is the own-send port then, which may start the head of one where it was idle; at most `answers` entries were placed in the
management class. -/
def OwnFramesStay (answers : Nat) (s t : State) : Prop :=
  let f := s.forward
  ∃ started : Option FrameClass,
    ClassQueuesMoved f.classQueue
      (fun c => match c with
        | .management => if f.management.length < 16 then answers else 0
        | .console => 0
        | .image => 2 - f.image.length)
      (f.managementUsed, f.consoleUsed, f.sharedUsed) t started ∧
    (∀ p, ownSendPort t.forward.ring = some p → started ≠ none → (s.port p).sending = none) ∧
    (f.horizonHeld = true → t.forward.horizonHeld = true)

/-- The ring state follows from the links (R158). -/
def RingLaw (s : State) : Prop := s.forward.ring = ringOf s.portA.link.state s.portB.link.state

/-- The election unit when the ring state has been formed anew (R158, R176): in LISTENING the listen timer stops where it is now ISOLATED,
and starts again, at the value it was started with last, where it was ISOLATED and is so no more; all else stays. -/
def ElectionFollowsRing (s t : State) : Prop :=
  let e := s.election
  (e.state = .listening → t.forward.ring = .isolated → t.election = { e with listenTimer := none }) ∧
  (e.state = .listening → t.forward.ring ≠ .isolated → s.forward.ring = .isolated →
    t.election = { e with listenTimer := some (t.now + e.listenValue) }) ∧
  (e.state ≠ .listening ∨ (t.forward.ring ≠ .isolated ∧ s.forward.ring ≠ .isolated) → t.election = e)

/-- The ring state was formed anew (R158, R165, R167, R176): it is what the links make it, the election unit follows it, and the class
queues, settings, accounts and horizon stay. -/
def RingFormed (s t : State) : Prop :=
  RingLaw t ∧ ElectionFollowsRing s t ∧ OwnFramesStay 0 s t ∧
    t.forward.still = { s.forward.still with ring := t.forward.ring }

/-- The command executes a RING RESTART, which empties the queues (R171). -/
def RestartsRing (c : Instr) (s : State) : Prop :=
  ∃ dt r rest, c = .ringRestart dt ∧ Due s r rest .ringRestart

/-- The port left UP (R167). -/
def LeavesUp (s t : State) (p : PortId) : Prop := (s.port p).link.state = .up ∧ (t.port p).link.state ≠ .up

/-- The own queues of a port through a command, and the frame it sends, which is one that `took` says has started (R164, R166, R167): a
queue flushed or emptied holds nothing more, and the frame being sent stays till its end, unless the port left UP. -/
def PortQueuesMoved (c : Instr) (s t : State) (p : PortId) (took : Option Supply) : Prop :=
  let q := s.port p
  let x := t.port p
  let emptied : Prop := LeavesUp s t p ∨ RestartsRing c s
  let kept (l m : List Frame) : Prop := (emptied → m = []) ∧ (¬emptied → m = l)
  let taken (k : Supply) : Option Frame := if took = some k then x.sending.map Sending.frame else none
  (∃ trips cycles transit, kept q.trips trips ∧ kept q.cycles cycles ∧ kept q.transit transit ∧
    QueueMoved trips x.trips id (roomForOne (mayPlace c .trips) q.trips.length 8) (taken .trips) ∧
    QueueMoved cycles x.cycles id (roomForOne (mayPlace c .cycles) q.cycles.length 2) (taken .cycles) ∧
    QueueMoved transit x.transit id (roomForOne (mayPlace c .transit) q.transitBytes 16384) (taken .transit)) ∧
  (took ≠ none → x.sending ≠ none ∧ (q.sending = none ∨ c = .portFrameEnd p)) ∧
  (took = none → (LeavesUp s t p ∨ c = .portFrameEnd p → x.sending = none) ∧
    (¬LeavesUp s t p → c ≠ .portFrameEnd p → x.sending = q.sending))

/-- The queues and the sending frames through a command (R164 to R168, R171): each queue is the one before, with what the command placed
behind it and less the head that started at the command's end; a port that left UP has its own queues flushed, a RING RESTART empties all;
STREAM_MODE_OFF and STREAM_RESTART can take the segment of their own context out of the image class queue (R100). The accounts are
charged by what started, from 0 on where the command renewed them. -/
def QueuesMoved (c : Instr) (s t : State) : Prop :=
  let f := s.forward
  ∃ (took : PortId → Option Supply) (started : Option FrameClass) (before : FrameClass → List ClassEntry),
    (∀ p, PortQueuesMoved c s t p (took p)) ∧
    (∀ p k, took p = some (.ofClass k) ↔ ownSendPort t.forward.ring = some p ∧ started = some k) ∧
    (RestartsRing c s → ∀ k, before k = []) ∧
    (¬RestartsRing c s → before .management = f.management ∧ before .console = f.console ∧
      (before .image = f.image ∨ ∃ dt w r rest, (c = .streamModeOff dt w ∨ c = .streamRestart dt) ∧ s.agent.queue = r :: rest ∧
        before .image = f.image.filter fun e => e.owner != .segment r.entry)) ∧
    ClassQueuesMoved before
      (fun k => match k with
        | .management => roomForOne (mayPlace c (.ofClass k)) (before k).length 16
        | .console => roomForOne (mayPlace c (.ofClass k)) (before k).length 16
        | .image => 2 - (before k).length)
      (if t.forward.renewals = f.renewals then (f.managementUsed, f.consoleUsed, f.sharedUsed) else (0, 0, 0)) t started

/-- The command resets the part (R90, R192, R198). -/
def Resets (c : Instr) (s : State) : Prop :=
  (∃ dt straps, c = .powerOnReset dt straps) ∨ ∃ straps, c = .nodeResetBegin straps ∧ s.agent.resetWait ≠ none

/-! ### The system tiles (R143, R147) -/

/-- What tiles 252 to 255 show in a state. -/
def shownIn (s : State) : List (Nat × TileContent) :=
  [(252, shownTrips s), (253, shownAxes s), (254, shownRing s), (255, shownStreams s)]

/-- The contents of the system tiles are what the state shows (R147). -/
def TileLaw (s : State) : Prop :=
  ∀ x ∈ shownIn s, (s.console.tiles.get? x.1).map Tile.content = some x.2

/-- The tile `x` became `y` by `k` changes of its content (R147): each makes it DIRTY and its version one higher, with this node as the last
writer; with none it is as before. -/
def TileWritten (writer k : Nat) (x y : Tile) : Prop :=
  (k = 0 → y = x) ∧ (k = 1 → y.content ≠ x.content) ∧
  (0 < k → y = { x with
    state := .dirty, lastWriter := writer, version := some (x.version.getD 0 + BitVec.ofNat 16 k), content := y.content })

/-- The tile that the command hands to the console transmitter (R149). -/
def sentTile (c : Instr) (s : State) : Option Nat :=
  match c with
  | .consoleSendStart _ =>
    if s.console.sending = none ∧ s.console.holdIn = false ∧ s.console.replies = [] ∧ s.console.inbound = [] then
      (s.console.systemQueue ++ s.console.ordinaryQueue).head?
    else none
  | _ => none

/-- The system tiles through a command (R147, R148): a tile whose content changed is written, once, and joins the tail of the system part
of the delivery queue unless it was DIRTY; a tile handed to the console transmitter is CLEAN and left the queue before. TRIP_RESET, whose
view and own-raised word change in two steps (R75), can write tile 252 twice. -/
def SystemTilesShown (c : Instr) (s t : State) : Prop :=
  let sent := sentTile c s
  ∃ writes : Nat → Nat,
    (∀ n, writes n ≤ 1 ∨ (writes n = 2 ∧ n = 252 ∧ ∃ dt, c = .tripReset dt)) ∧
    (∀ n x y, 252 ≤ n → s.console.tiles.get? n = some x → t.console.tiles.get? n = some y →
      TileWritten s.writer (writes n) (if sent = some n then { x with state := .clean } else x) y) ∧
    t.console.systemQueue = (if sent = none then s.console.systemQueue else s.console.systemQueue.tail) ++
      [252, 253, 254, 255].filter fun n =>
        0 < writes n ∧ (sent = some n ∨ (s.console.tiles.get? n).any (fun x => x.state != .dirty))

/-! ### The drive link and the fibre -/

/-- The handed values are of an axis that is in OFF, or has entered OFF since they were handed over (R26, R35, R49). -/
def EnteredOff (s : State) (h : Handed) : Prop :=
  (s.axis.entries.getD h.axis {}).state = .off ∨ (s.axis.entries.getD h.axis {}).offs ≠ h.offs

/-- The poll goes on, in `t`, with the first axis of the list that has not entered OFF since the hand-over, its setpoint record of
4.4 µs starting now; with none left it is complete (R26, R49, R50). -/
def PollsOn (t : State) (tag : Byte) (list : List Handed) : Prop :=
  ((∀ h ∈ list, EnteredOff t h) ∧ t.drive.poll = none) ∨
  ∃ (before : List Handed) (h : Handed) (rest : List Handed), list = before ++ h :: rest ∧ (∀ x ∈ before, EnteredOff t x) ∧
    ¬EnteredOff t h ∧
    t.drive.poll = some ⟨tag, h, .sending (t.now + 4400), rest⟩

/-- A frame handed to the trip queue of a port (R164, R166), as the command leaves it: discarded on a port that is not UP; counted
as dropped when the queue held 8; behind the waiting frames of a port that is sending; else the first of the queue has started. -/
def HandedToTripQueue (s t : State) (p : PortId) (f : Frame) : Prop :=
  let q := s.port p
  if q.link.state ≠ .up then (t.port p) = q
  else if 8 ≤ q.trips.length then (t.port p).counters.tripDropped = bump q.counters.tripDropped
  else if q.sending.isSome then (t.port p).trips = q.trips ++ [f] ∧ (t.port p).sending = q.sending
  else (t.port p).trips = (q.trips ++ [f]).tail ∧
    ∃ h, (q.trips ++ [f]).head? = some h ∧ (t.port p).sending = some ⟨h, q.lineFree t.now + h.time q.link.rate, false, false⟩

/-- The entry `e` of a group that was reported is `x` afterwards (R40): with TORQUE_OFF assigned to its group a moving or stopped axis
is disabled, otherwise an axis in FOLLOW stops. -/
def AfterReport (actions : Table Action 32) (view : Marks) (e x : AxisEntry) : Prop :=
  let off : Prop := ∃ c, c < 32 ∧ view.getLsbD c = true ∧ (actions.getD c {}).groups.getLsbD e.groupInUse = true ∧
    (actions.getD c {}).kind = .torqueOff
  (off → x = if e.state = .follow ∨ e.state = .stopping ∨ e.state = .stopped
    then { e with state := .disabled, rem := 0, v := 0, disables := e.disables + 1 } else e) ∧
  (¬off → x = if e.state = .follow then { e with state := .stopping } else e)

/-- The entry `e` is `y` once its stop group has come into use at a cycle event (R23): in FOLLOW in a group that a channel of the
view stops it takes that group's action. -/
def InItsGroup (trip : TripUnit) (e y : AxisEntry) : Prop :=
  let x := { e with groupInUse := e.group }
  (e.state = .follow → groupStopped trip e.group = true → AfterReport trip.actions trip.view x y) ∧
  (e.state ≠ .follow ∨ groupStopped trip e.group = false → y = x)

/-- At a cycle event every axis came into its stop group (R23) and was computed with the step, and then the groups that the view formed
at its end newly stops took their report (R12, R26, R40, R89). That the group comes into use before the computation, and the report
after it, is the model's choice (assumptions 46 and 25). -/
def ComputedAndReported (s t : State) (step : Int) : Prop :=
  ∀ i e, s.axis.entries.get? i = some e → e.group < 4 → ∃ y x, InItsGroup s.trip e y ∧ t.axis.entries.get? i = some x ∧
    let gained : Prop := ∃ c, c < 32 ∧ assignsStop s.trip.actions t.trip.view c e.group = true ∧
      assignsStop s.trip.actions s.trip.view c e.group = false
    (gained → AfterReport s.trip.actions t.trip.view (y.compute step) x) ∧ (¬gained → x = y.compute step)

/-- A command that ended at `t` aborted the delivery `d`: line-valid is released at the end of the word then on the lines, a word taking
20 ns from the first one on (R135, R137); where the first word was still to come, it stays as the delivery before left it. -/
def LineReleased (s t : State) (d : Delivery) : Prop :=
  (d.begins ≤ t.now → ∃ x, t.image.released = some x ∧ t.now < x ∧ x ≤ t.now + 20 ∧ (x - d.begins) % 20 = 0) ∧
  (t.now < d.begins → t.image.released = s.image.released)

/-- An own frame of this node was placed in the console class queue (R142, R165), as the command leaves it; nothing else of the
forwarding unit changed. -/
def PlacedInConsoleClass (s t : State) (owner : Owner) (kind : FrameKind) (dest : Byte) (data : List Byte) : Prop :=
  let e : ClassEntry := ⟨Frame.own s.addressByte kind dest (.bytes data), owner⟩
  (s.forward.console.length < 16 → Queued s.forward.console t.forward.console e ClassEntry.frame t) ∧
  t.forward.still = (s.forward.place .console e).still

/-- A request was taken into the agent's queue, or answered BUSY when the queue held 8 (R193). -/
def TakenOrBusy (s t : State) (r : Request) : Prop :=
  if s.agent.queue.length < 8 then
    t.agent = { s.agent with
      queue := s.agent.queue ++ [r]
      counters := { s.agent.counters with requestsTaken := bump s.agent.counters.requestsTaken } }
  else t.agent = { s.agent with counters := { s.agent.counters with busy := bump s.agent.counters.busy } }

/-- A frame handed to the cycle queue of a port (R1, R159, R164, R166), as the command leaves it: discarded on a port that is not UP;
counted as dropped when the queue held 2; behind the waiting frames of a port that is sending; else the first trip frame has started,
or with none waiting the first of the queue. -/
def HandedToCycleQueue (s t : State) (p : PortId) (f : Frame) : Prop :=
  let q := s.port p
  let starts (h : Frame) : Prop := (t.port p).sending = some ⟨h, q.lineFree t.now + h.time q.link.rate, false, false⟩
  if q.link.state ≠ .up then (t.port p) = q
  else if 2 ≤ q.cycles.length then (t.port p).counters = { q.counters with cycleDropped := bump q.counters.cycleDropped }
  else (t.port p).counters = q.counters ∧
    if q.sending.isSome then (t.port p).cycles = q.cycles ++ [f] ∧ (t.port p).sending = q.sending
    else
      match q.trips with
      | h :: rest => starts h ∧ (t.port p).trips = rest ∧ (t.port p).cycles = q.cycles ++ [f]
      | [] => (t.port p).cycles = (q.cycles ++ [f]).tail ∧ ∃ h, (q.cycles ++ [f]).head? = some h ∧ starts h

/-- The port that a frame received on a port goes out of (R159). -/
def outPort : RingState → PortId → Option PortId
  | .ring, .a => some .b
  | .ring, .b => some .a
  | .lineA, .a => some .a
  | .lineB, .b => some .b
  | _, _ => none

/-- A frame received on port `p` goes on as `copy` (R157, R159, R164), as the command leaves it: behind the transit frames of the port
that the ring state gives, or counted as dropped where the FIFO has no room for it. -/
def GoesOn (s t : State) (p : PortId) (copy : Frame) : Prop :=
  ∀ q, outPort s.forward.ring p = some q →
    ((s.port q).transitBytes + copy.length ≤ 16384 → Queued (s.port q).transit (t.port q).transit copy id t ∧
      (t.port q).counters = (s.port q).counters) ∧
    (16384 < (s.port q).transitBytes + copy.length →
      (t.port q).counters = { (s.port q).counters with transitDropped := bump (s.port q).counters.transitDropped })

/-- A frame of another node, of a kind other than CLAIM, that a node with an address consumes (R160): addressed to it, or to all nodes;
in the second case it goes on as well. -/
def Consumed (s : State) (f : Frame) : Prop :=
  s.hasAddress = true ∧ f.origin ≠ s.addressByte ∧ (f.dest = s.addressByte ∨ f.dest = 0) ∧ f.kind ≠ .claim

/-- What the forwarding of a consumed frame changes besides: nothing but the counts of the port it came on, and for a frame to all
nodes the port it goes out of (R159, R160). -/
def KeepsBesides (changed : List Block) (s t : State) (p : PortId) (f : Frame) : Prop :=
  if f.dest = 0 then GoesOn s t p { f with hop := f.hop - 1 } ∧ KeepsAllBut (changed ++ [.portA, .portB]) s t
  else KeepsAllBut (changed ++ [portBlock p]) s t

/-- The slot content `x` for the cycle number `n` (R2): the content captured for it, or what the node captures now. The bits of byte 0 to
which R173 gives no meaning are 0: the model's choice (assumption 83). -/
def SlotContent (s : State) (n : BitVec 16) (x : Slot) : Prop :=
  (∀ y, s.cycle.capture = some (n, y) → x = y) ∧
  ((∀ y, s.cycle.capture ≠ some (n, y)) → ∃ streams : Byte,
    (∀ i, i < 8 → (streams.getLsbD i = true ↔ (s.image.ctx i).record.mode ≠ .off ∧
      (s.image.ctx i).work.held = (s.image.ctx i).record.capacity)) ∧
    beBytes 8 x.toNat = [BitVec.ofNat 8 (128 + 16 * s.cycle.sync.code + s.forward.ring.code),
      BitVec.ofNat 8 (s.axis.entries.list.filter fun e => e.state == .follow).length,
      BitVec.ofNat 8 (s.axis.entries.list.filter fun e => e.tripping).length, streams] ++ beBytes 4 s.trip.own.toNat)

/-- The link `l` in ACQUIRE with attempt 1 just started (R186): at FULL, its lock watchdog at 2 ms, without word lock. -/
def AtAttemptOne (l : Link) (now : Time) : Link :=
  { l with state := .acquire, attempt := 1, rate := .full, identity := none, watchdog := some (now + 2000000), retry := none }

/-- The attempt in progress at the link `l` failed, and left it as `m` (R186): the failure counted, the attempt counter one higher unless it
is 255, never up latched at the 8th by a port that has not been UP; from the 8th on the retry timer runs and the rate stays, before it the
next attempt has started at its rate, one at REDUCED latching downgraded. -/
def AttemptFailed (l m : Link) (now : Time) : Prop :=
  let next := if l.attempt < 255 then l.attempt + 1 else l.attempt
  let k := { l.counters with
    attemptFailed := bump l.counters.attemptFailed
    neverUp := l.counters.neverUp || decide (l.attempt = 8 ∧ l.beenUp = false) }
  (8 ≤ l.attempt → m = { l with
    attempt := next, identity := none, watchdog := none, retry := some (now + 100000000), counters := k }) ∧
  (l.attempt < 8 → m = { l with
    attempt := next
    rate := if next ≤ 3 then .full else .reduced
    identity := none
    watchdog := some (now + 2000000)
    retry := none
    counters := { k with downgraded := k.downgraded || decide (3 < next) } })

/-- The frames of a port that was UP are discarded and counted, the one being sent among them (R167); a port that was not UP counts
nothing. -/
def FramesFlushed (s t : State) (p : PortId) : Prop :=
  let q := s.port p
  (q.link.state = .up →
    (t.port p).trips = [] ∧ (t.port p).cycles = [] ∧ (t.port p).transit = [] ∧ (t.port p).sending = none ∧
    (t.port p).counters = { q.counters with
      portFlushed := bumpBy q.counters.portFlushed
        (q.trips.length + q.cycles.length + q.transit.length + (if q.sending.isSome = true then 1 else 0)) }) ∧
  (q.link.state ≠ .up → (t.port p).counters = q.counters)

/-- The link of a port that was UP is in ACQUIRE at attempt 1, with `counters` as its counters, and the frames of the port are discarded
and counted (R167, R189). The counts of the CRC window, which the entry to UP clears, are left out. -/
def LeftUp (s t : State) (p : PortId) (counters : PortCounters) : Prop :=
  let q := s.port p
  let m := (t.port p).link
  m = { AtAttemptOne q.link t.now with counters := counters, frames := m.frames, errors := m.errors } ∧ FramesFlushed s t p ∧ RingLaw t

/-- The head `e` of a class queue may be charged to the accounts of its class (R168). -/
def FitsAccounts (f : ForwardUnit) : FrameClass → ClassEntry → Prop
  | .management, e => f.managementUsed + e.frame.length ≤ 2048
  | .console, e => f.consoleUsed + e.frame.length ≤ f.consoleCapEff ∧ f.sharedUsed + e.frame.length ≤ f.allowanceEff
  | .image, e => f.sharedUsed + e.frame.length ≤ f.allowanceEff

/-- `e` is the head of a class queue, and its accounts and the horizon let it start at `now` on a port of rate `r` (R168, R169). -/
def MayStart (f : ForwardUnit) (now : Time) (r : Rate) (c : FrameClass) (e : ClassEntry) : Prop :=
  (f.classQueue c).head? = some e ∧ FitsAccounts f c e ∧ now + e.frame.time r ≤ f.horizon

/-- The head of a class queue is held back by the horizon and by nothing else (R169). -/
def HeldByHorizon (f : ForwardUnit) (now : Time) (r : Rate) (c : FrameClass) : Prop :=
  ∃ e, (f.classQueue c).head? = some e ∧ FitsAccounts f c e ∧ f.horizon < now + e.frame.time r

/-- The law of the device on regions (R99): the regions of all stream contexts that are not OFF lie within blocks 0 to 255 and do not
overlap, and no context holds more lines than its capacity; with what keeps it: a context in OFF has no work, triggers, captures and
waiting segments belong to a SOURCE, segments wait in the image class queue alone (R165), which holds nothing else and at most one of each
context, and one of every SOURCE with a held line (R112); contexts 0 and 1 alone are SOURCE (R99); assemblies and the delivery belong to
a SINK, and a line being filled has a slot. -/
def RegionLaw (s : State) : Prop :=
  (∀ i, i < 8 → ∀ c, c = s.image.ctx i →
    c.work.held ≤ c.record.capacity ∧
    (c.record.mode = .off → c.work = {}) ∧
    (c.record.mode ≠ .off → c.record.base + c.record.size ≤ 256 ∧
      ∀ j, j < 8 → j ≠ i → (s.image.ctx j).record.mode ≠ .off → regionsMeet c.record (s.image.ctx j).record = false) ∧
    (c.record.mode = .source → i < 2 ∧ (0 < c.work.held → ∃ e ∈ s.forward.image, e.owner = .segment i)) ∧
    (c.work.triggers ≠ [] → c.record.mode = .source) ∧
    (c.work.capture ≠ none → c.record.mode = .source ∧ c.work.held < c.record.capacity) ∧
    (∀ a, c.work.assembly = some a → c.record.mode = .sink ∧ (a.cond ≠ .dropped → c.work.held < c.record.capacity))) ∧
  (∀ e ∈ s.forward.image, ∃ i, i < 8 ∧ e.owner = .segment i ∧ (s.image.ctx i).record.mode = .source) ∧
  (s.forward.image.map fun e => e.owner).Nodup ∧
  (∀ e ∈ s.forward.management ++ s.forward.console, ∀ i, e.owner ≠ .segment i) ∧
  ∀ d, s.image.delivery = some d → d.ctx < 8 ∧ (s.image.ctx d.ctx).record.mode = .sink

/-- The segment of context `i` at the head of the image class queue was handed to a port (R111, R112): it is counted, behind the last one of
its line the line's slot is freed, and with a line still held the context's next segment waits behind the other context's. -/
def SegmentHandedOver (s t : State) (i : Nat) : Prop :=
  let c := s.image.ctx i
  let lastOne : Prop := segmentCount (fieldAt (s.image.oldestHeader c) 8 2) c.record.segment ≤ c.work.segmentsDone + 1
  let k := { c.counters with segmentsSent := bump c.counters.segmentsSent }
  (lastOne → t.image.ctx i = { c with
    work := { c.work with held := c.work.held - 1, read := c.record.nextSlot c.work.read, segmentsDone := 0 }
    counters := k }) ∧
  (¬lastOne → t.image.ctx i = { c with work := { c.work with segmentsDone := c.work.segmentsDone + 1 }, counters := k }) ∧
  (∀ j, j < 8 → j ≠ i → t.image.ctx j = s.image.ctx j) ∧
  t.forward.image = s.forward.image.tail ++ (if 0 < (t.image.ctx i).work.held then
    [⟨Frame.own s.addressByte .segment (BitVec.ofNat 8 c.record.destNode) (.bytes (t.image.segmentPayload i)), .segment i⟩] else [])

/-- The own-send port `p`, with no frame waiting in its own queues, chose among the class queues (R166, R168, R169): the first head in the
order management, console, image that may start has started, is removed and charged to its accounts, and a segment is handed over; a head
above it that the horizon alone held back is counted, once in a cycle interval; where no head may start the port stays idle. What it says of
the image class has `RegionLaw` as its premise, which every run keeps. -/
def ClassFrameChosen (s t : State) (p : PortId) : Prop :=
  let f := s.forward
  let g := t.forward
  let q := s.port p
  let may (c : FrameClass) (e : ClassEntry) : Prop := MayStart f t.now q.link.rate c e
  let bars (c : FrameClass) : Prop := ∀ e, ¬may c e
  let late (c : FrameClass) : Prop := HeldByHorizon f t.now q.link.rate c
  let starts (e : ClassEntry) : Prop := (t.port p).sending =
    some ⟨e.frame, q.lineFree t.now + e.frame.time q.link.rate, false, decide (e.owner = .answer true)⟩
  let charged (m c x : Nat) : Prop :=
    g.managementUsed = f.managementUsed + m ∧ g.consoleUsed = f.consoleUsed + c ∧ g.sharedUsed = f.sharedUsed + x
  let counted (h : Prop) : Prop :=
    (h → f.horizonHeld = false → g.horizonHeld = true ∧ g.counters.horizonHold = bump f.counters.horizonHold) ∧
    (¬h ∨ f.horizonHeld = true → g.horizonHeld = f.horizonHeld ∧ g.counters.horizonHold = f.counters.horizonHold)
  (∀ e, may .management e → starts e ∧ charged e.frame.length 0 0 ∧ counted False ∧
    g.management = f.management.tail ∧ g.console = f.console) ∧
  (bars .management → ∀ e, may .console e → starts e ∧ charged 0 e.frame.length e.frame.length ∧ counted (late .management) ∧
    g.management = f.management ∧ g.console = f.console.tail) ∧
  (bars .management → bars .console → RegionLaw s →
    (∀ e, may .image e → starts e ∧ charged 0 0 e.frame.length ∧ counted (late .management ∨ late .console) ∧
      g.management = f.management ∧ g.console = f.console ∧ ∀ i, e.owner = .segment i → SegmentHandedOver s t i) ∧
    (bars .image → (t.port p).sending = none ∧ charged 0 0 0 ∧ counted (late .management ∨ late .console ∨ late .image) ∧
      g.management = f.management ∧ g.console = f.console ∧ g.image = f.image))

/-- The trip unit `u` was evaluated (R66, R72 to R74): the targets of true rules are raised; gained channels at a node with an
address advance the trip sequence and send the whole word in one trip frame on every port that is UP; the view is formed anew. -/
def Evaluated (u : TripUnit) (s t : State) : Prop :=
  t.trip.own = u.own ||| u.active.raised u.sources ∧
  (if t.trip.own ≠ u.own ∧ s.hasAddress = true then
    t.trip.seq = u.seq + 1 ∧ t.trip.counters.tripFrame = bump u.counters.tripFrame ∧
    ∀ p, HandedToTripQueue s t p (Frame.own s.addressByte .trip 0 (.bytes (tripPayload t.trip.seq t.trip.own)))
  else t.trip.seq = u.seq ∧ t.trip.counters.tripFrame = u.counters.tripFrame ∧ Block.portA.same s t ∧ Block.portB.same s t) ∧
  t.trip.view = t.trip.formed

/-! ### Cycle events and the election -/

/-- The values that a cycle event hands to the drive link controller (R26, R46): those of every axis not in OFF, in ascending order, as
its computation with the step left them. -/
def HandedValues (s : State) (step : Int) (values : List Handed) : Prop :=
  (values.map fun h => h.axis).Pairwise (· < ·) ∧
  ∀ h, h ∈ values ↔ ∃ e y, s.axis.entries.get? h.axis = some e ∧ InItsGroup s.trip e y ∧ (y.compute step).handed h.axis = some h

/-- The pending output instant of a cycle event (R13, R48): the instant `due`, or at once and counted as short where it has passed, with
the low byte of the cycle number as tag; an instant still pending is replaced and counted. -/
def OutputInstantSet (s t : State) (due : Int) : Prop :=
  ∃ values, HandedValues s t.cycle.lastStep values ∧
    t.drive = { s.drive with
      next := some ⟨if due < (t.now : Int) then t.now else due.toNat, t.cycle.number.setWidth 8, values⟩
      counters := if s.drive.next = none then s.drive.counters
        else { s.drive.counters with instantReplaced := bump s.drive.counters.instantReplaced } } ∧
    t.cycle.counters.alignmentShort =
      (if due < (t.now : Int) then bump s.cycle.counters.alignmentShort else s.cycle.counters.alignmentShort)

/-- The trigger generators' part of a cycle event (R12, R103, R104), Mloc having been at `before`: contexts 0 and 1 in turn. What it is
in one context, TriggerAndLineValidRule says. -/
def TriggersSelected (s t : State) (before : ExtPos) : Prop :=
  let select (u : ImageUnit) (i : Nat) : ImageUnit :=
    u.triggerEvent i t.now (1000 * t.cycle.workingPeriod.us) before t.cycle.lastStep
  t.image.still = (select (select s.image 0) 1).still

/-- Accounts and horizon renewed at a cycle event (R168, R169): the shared allowance is the lesser of A and half the bytes that the ring
carries in a period, Kc is the one written last, the horizon lies 2 µs before the next expected arrival, and the accounts are 0 but for
the one frame that the renewal has let start. -/
def AccountsRenewed (s t : State) : Prop :=
  let half := match t.cycle.ringRate with
    | .full => 125 * t.cycle.workingPeriod.us
    | .reduced => 125 * t.cycle.workingPeriod.us / 2
  t.forward.still = { s.forward.still with
    allowanceEff := min s.forward.allowance half
    consoleCapEff := s.forward.consoleCap
    horizon := t.cycle.expected - 2000
    renewals := s.forward.renewals + 1
    counters := { s.forward.still.counters with managementOverflow := t.forward.counters.managementOverflow } } ∧
  let used (m c x : Nat) : Prop := t.forward.managementUsed = m ∧ t.forward.consoleUsed = c ∧ t.forward.sharedUsed = x
  (used 0 0 0 ∨ ∃ p y, (s.port p).sending = none ∧ (t.port p).sending = some y ∧
    (used y.frame.length 0 0 ∨ used 0 y.frame.length y.frame.length ∨ used 0 0 y.frame.length))

/-- The trip unit is `u` with the view formed anew (R86, R87, R89, R90): the outputs follow a changed view, and the groups that gain an
assignment by it are counted. -/
def ViewFormed (u : TripUnit) (s t : State) : Prop :=
  let v := u.formed
  let gained := countBelow 4 fun g => (List.range 32).any fun c =>
    assignsStop u.actions v c g && !assignsStop u.actions s.trip.view c g
  t.trip.still = { u.still with
    view := v
    outputs := if v = s.trip.view then u.outputs else outputsOf u.actions v
    counters := { u.counters with
      groupAction := if v = s.trip.view then u.counters.groupAction else bumpBy u.counters.groupAction gained } }

/-- What a cycle event hands on (R12), Mloc having been at `before`, with the output instant `due` and the total and upstream word that a
real one received. What `TripUnit.cycleEvent` makes of them, TripTotalsRule says. -/
def CycleEventHandsOn (s t : State) (before : ExtPos) (due : Int) (received : Option (Marks × Marks)) : Prop :=
  ComputedAndReported s t t.cycle.lastStep ∧ OutputInstantSet s t due ∧ TriggersSelected s t before ∧ AccountsRenewed s t ∧
  ViewFormed (s.trip.cycleEvent received) s t

/-- An UP fibre port runs at REDUCED (R178, R179). -/
def SlowPort (s : State) : Prop := ∃ p, (s.port p).link.state = .up ∧ (s.port p).link.rate = .reduced

/-- A claim of this node with an attempt number was placed (R165, R178, R181), its floor REDUCED if an UP port runs at REDUCED, or counted
as lost when the management class queue held 16. -/
def ClaimPlaced (s t : State) (attempt : Nat) : Prop :=
  ∃ floor : Byte, (SlowPort s → floor = 1) ∧ (¬SlowPort s → floor = 0) ∧
    PlacedInManagement s.forward.management ⟨Frame.own s.addressByte .claim 0
      (.bytes [s.addressByte, BitVec.ofNat 8 s.election.priority, BitVec.ofNat 8 attempt, floor]), .election⟩ t ∧
    t.forward.counters.managementOverflow = (if s.forward.management.length < 16 then s.forward.counters.managementOverflow
      else bump s.forward.counters.managementOverflow)

/-- The claim step of R178, taken by an election unit that stands at `e`: a claim with the next attempt number, or behind the fifth
attempt FAILED. -/
def ClaimStepTaken (s t : State) (e : ElectionUnit) : Prop :=
  (e.attempts < 5 → ClaimPlaced s t (e.attempts + 1) ∧ t.election = { e with
    state := .claiming
    attempts := e.attempts + 1
    claimTimer := some (t.now + 20000000)
    listenTimer := none
    counters := { e.counters with claimsPlaced := bump e.counters.claimsPlaced } }) ∧
  (5 ≤ e.attempts → t.forward.counters.managementOverflow = s.forward.counters.managementOverflow ∧ t.election = { e with
    state := .failed, claimTimer := none, listenTimer := none, counters := { e.counters with electionFailed := true } })

/-- The election unit `e` with the listen timer started at 40 ms, where the ring state lets it run (R176). -/
def ListensAnew (s t : State) (e : ElectionUnit) : ElectionUnit :=
  { e with listenValue := 40000000, listenTimer := if s.forward.ring = .isolated then none else some (t.now + 40000000) }

/-- The cycle unit `u` of a master left MASTER as `x` (R20): Vlast and the last target velocity are the last V and Vt sent, or stay as
they are where none was sent (the model's choice, assumption 22). -/
def LeftMaster (u x : CycleUnit) : Prop :=
  x = { u with returned := [], sentNumber := none, vlast := x.vlast, lastTarget := x.lastTarget } ∧
  (∀ v vt, u.sentSpeed = some (v, vt) → x.vlast = v ∧ x.lastTarget = vt) ∧
  (u.sentSpeed = none → x.vlast = u.vlast ∧ x.lastTarget = u.lastTarget)

/-! ### Images -/

/-- A correction `c` taken by the axis unit for an axis (R43, R44): clamped to Cstep, added, clamped to Cmax, with CLAMP set and counted
where a clamp bites; counted as ignored unless the axis is in FOLLOW. -/
def CorrectionTaken (s t : State) (axis : Nat) (c : Int) : Prop :=
  (∀ e, s.axis.entries.get? axis = some e → e.state = .follow →
    let step := clampMag e.corrStep c
    let sum := clampMag e.corrMax (e.corr + step)
    t.axis.entries.get? axis = some { e with
      corr := sum
      flags := { e.flags with clamp := e.flags.clamp || step != c || sum != e.corr + step } } ∧
    t.axis.counters.taken = bump s.axis.counters.taken ∧ t.axis.counters.ignored = s.axis.counters.ignored ∧
    t.axis.counters.clamped = (if step = c ∧ sum = e.corr + step then s.axis.counters.clamped
      else bump s.axis.counters.clamped)) ∧
  ((∀ e, s.axis.entries.get? axis = some e → e.state ≠ .follow) →
    t.axis = { s.axis with counters := { s.axis.counters with ignored := bump s.axis.counters.ignored } }) ∧
  KeepsEntriesBut axis s.axis.entries t.axis.entries

/-- The line `a` at the write index was closed (R132, R134): its header stored, but of a DROPPED line; held with COMPLETE, SHORT or
DAMAGED, but for a DROPPED line and for a damaged one under DROP; the expected line behind it, and none in assembly. -/
def LineClosed (x y : SinkWork) (a : Assembly) : Prop :=
  let r := x.ctx.record
  let k := x.ctx.counters
  let whole := a.bytes == r.length * r.pixel
  let reason := if a.cond = .damaged then Reason.damaged else if whole then .complete else .short
  let kept := a.cond == .assembling || (a.cond == .damaged && r.damaged == .mark)
  y.memory = (if a.cond = .dropped then x.memory
    else x.memory.write (r.slotAddress x.ctx.work.write) (lineHeader a.line a.tag reason a.bytes)) ∧
  y.ctx = { x.ctx with
    work := { x.ctx.work with
      assembly := none
      expectedLine := some (a.line + 1)
      held := if kept then x.ctx.work.held + 1 else x.ctx.work.held
      write := if kept then r.nextSlot x.ctx.work.write else x.ctx.work.write }
    counters := { k with
      linesReceived := if a.cond = .assembling then bump k.linesReceived else k.linesReceived
      lineShort := if a.cond = .assembling ∧ whole = false then bump k.lineShort else k.lineShort
      damagedDropped := if a.cond = .damaged ∧ r.damaged = .drop then bump k.damagedDropped else k.damagedDropped } }

/-! ### The laws of the device, as properties of a state -/

/-- What one axis entry always is: D is at least 1, R is at least 0 and below D (R27), and C stays within Cmax (R43). -/
def AxisEntry.law (e : AxisEntry) : Prop :=
  1 ≤ e.den ∧ 0 ≤ e.rem ∧ e.rem < (e.den : Int) ∧ e.corr.natAbs ≤ e.corrMax

/-- The law of every axis, and no axis in FOLLOW in a stop group that a channel in the view stops (R40). The group is the one in use
since the last cycle event (R23): the model's choice (assumption 46). -/
def AxisLaw (s : State) : Prop :=
  (∀ e ∈ s.axis.entries.list, e.law) ∧
  ∀ e ∈ s.axis.entries.list, e.state = .follow → groupStopped s.trip e.groupInUse = false

/-- The trip view is what its contributions make (R86), the outputs follow it (R90), and a hold timer runs exactly while its pin's
level differs from the filtered one (R60). -/
def TripLaw (s : State) : Prop :=
  s.trip.view = s.trip.formed ∧ s.trip.outputs = outputsOf s.trip.actions s.trip.view ∧
  ∀ i, i < 8 → ((s.trip.hold.getD i none).isSome = ((!s.trip.pins.getLsbD i) != s.trip.filtered.getLsbD i))

/-- The election unit's timers run where R176 and R178 say, a node not in PASSIVE is capable (R174), and the attempt counter is at
most 5. -/
def ElectionLaw (s : State) : Prop :=
  (s.election.state ≠ .passive → s.capable = true) ∧
  (s.election.claimTimer.isSome = true ↔ s.election.state = .claiming) ∧
  (s.election.listenTimer.isSome = true ↔ s.election.state = .listening ∧ s.forward.ring ≠ .isolated) ∧
  s.election.attempts ≤ 5

/-- The delivery queue holds each tile at most once, and holds a tile exactly when it is DIRTY (R148). -/
def DeliveryLaw (s : State) : Prop :=
  (s.console.systemQueue ++ s.console.ordinaryQueue).Nodup ∧
  ∀ n, n ∈ s.console.systemQueue ++ s.console.ordinaryQueue ↔ (s.console.tiles.get? n).any (fun t => t.state == .dirty) = true

/-- The bounds of the queues (R140, R150, R153, R164, R165, R193). -/
def QueueLaw (s : State) : Prop :=
  s.console.outbound.length ≤ 64 ∧ s.console.inbound.length ≤ 32 ∧ s.console.replies.length ≤ 16 ∧
  s.agent.queue.length ≤ 8 ∧
  s.forward.management.length ≤ 16 ∧ s.forward.console.length ≤ 16 ∧ s.forward.image.length ≤ 2 ∧
  ∀ p, (s.port p).trips.length ≤ 8 ∧ (s.port p).cycles.length ≤ 2 ∧ (s.port p).transitBytes ≤ 16384

/-- The allowance accounts stay within their limits (R168). -/
def AllowanceLaw (s : State) : Prop :=
  s.forward.managementUsed ≤ 2048 ∧ s.forward.consoleUsed ≤ s.forward.consoleCapEff ∧
  s.forward.sharedUsed ≤ s.forward.allowanceEff

/-- Every source, once the changes handed to the trip unit are taken, has the value its condition gives (R59, R61). -/
def SourceLaw (s : State) : Prop := handedSources s.trip = conditions s

/-- Line memory is in its canonical form. -/
def MemoryLaw (s : State) : Prop := s.image.memory.wf

end Sys2Proof.Machine
end

