-- ==== Sys2Proof/Certificates/Slice0/Obligations.lean ====
section
/-!
DEFINITION. The statements for the provers. `Completes c s p` says that, with RESET not held in `s`, the command `c` answers a next
state for which `p` holds (what happens while RESET is held is said by EveryCommandCompletes);
`KeepsAllBut l s t` is the frame of a command: every block but those of `l` is as before, up to what the end of every command does
by itself (Safety.lean).
-/
open Sys2Proof Sys2Proof.Machine

/-! ### Steps, runs and resets -/

/-- A step takes the command at the front of the queue and runs it with the queue's rest; with no command waiting the part idles.
That the part idles with no command waiting is the model's choice (assumption 1). -/
def Obligations.StepRunsTheFrontCommand : Prop :=
  ∀ (s : State) (c : Instr) (rest : List Instr),
    (s.pending = c :: rest → step s = exec c (s.withPending rest)) ∧ (s.pending = [] → step s = .next s)

/-- Every command completes in every state, and leaves the queue of waiting commands and the clock's past alone: no command moves
the clock back. While RESET is held every TO pin is low (R90), and until the command that ends the reset the part stays in reset, with
only the clock and the levels of the outside moving, which is the model's choice (assumption 6). -/
def Obligations.EveryCommandCompletes : Prop :=
  ∀ (c : Instr) (s : State),
    Answers c s (fun t => t.pending = s.pending ∧ s.now ≤ t.now) ∧
    (s.resetHeld = true → s.toPins = 0xF) ∧ (s.resetHeld = false → s.toPins = s.trip.outputs) ∧
    (s.resetHeld = true → (∀ dt straps, c ≠ .powerOnReset dt (some straps)) → Answers c s fun t =>
      t.resetHeld = true ∧ t.straps = s.straps ∧
      (t = s ∨ t = { State.afterReset t.now t.straps t.trip.pins t.image.lineValid t.console.holdIn t.pending with resetHeld := true }))

/-- POWER_ON_RESET: the values that R3, R22, R48, R58 to R60, R63, R71, R76, R81, R83, R88, R97, R115, R117, R127, R136, R143, R168, R171,
R174, R185, R192 and R193 give; `{}` of a block's counters has every counter 0 and every latched event clear (introduction 4.4). RESET
held low takes the part into the same values with every TO pin low (R90). An executed NODE RESET begins when its answer has been sent,
or at the end of its 10 ms, and is then a power-on reset in every respect (R198).
The values of `trip.changes`, `cycle.returned`, `sentNumber`, `sentSpeed`, `forward.horizonHeld`, `link.identity`, `segmentsDone`,
`port.sending`, `agent.resetWait`, `offs` and `disables` are those of the model's own fields (DESIGN CHOICE, assumptions 42 and 47), and so is
that of `groupInUse` (assumption 46); they are no values of the rules above.
The outside's pin levels and the waiting commands stay, and what the blocks hold while RESET is held: the model's (assumption 6), and so is
that a NODE RESET begins at its instant, or at once where that has passed (assumption 7). -/
def Obligations.PowerOnResetLeavesTheTabledValues : Prop :=
  let term : Term := { source := 0, negate := false, op := .load, last := false, target := none }
  let tabled (s t : State) : Prop :=
    t.cycle.sync = .unsynced ∧ t.cycle.configuredPeriod = .us500 ∧ t.cycle.workingPeriod = .us500 ∧ t.cycle.number = 0 ∧
    t.cycle.numberOrigin = .substitute ∧ t.cycle.substitutes = 0 ∧ t.cycle.lastArrival = t.now ∧
    t.cycle.expected = t.now + 500000 ∧ t.cycle.mloc = 0 ∧ t.cycle.lastStep = 0 ∧ t.cycle.lag = 0 ∧ t.cycle.vlast = 0 ∧
    t.cycle.lastTarget = 0 ∧ t.cycle.ringRate = .reduced ∧ t.cycle.outDelay = 0 ∧ t.cycle.dOut = 0 ∧ t.cycle.dA = 0 ∧
    t.cycle.dB = 0 ∧ t.cycle.lastPort = none ∧ t.cycle.coast = 1000 ∧ t.cycle.jump = 65536 ∧ t.cycle.jumpFlag = false ∧
    t.cycle.jumpMasked = true ∧ t.cycle.lastTotal = 0 ∧ t.cycle.lastArea = SlotArea.empty ∧ t.cycle.capture = none ∧
    t.cycle.returned = [] ∧ t.cycle.sentNumber = none ∧ t.cycle.sentSpeed = none ∧
    t.cycle.gen = { position := 0, v := 0, vt := 0, accel := 1000, decel := 4096 } ∧ t.cycle.counters = {} ∧
    (∀ i, i < 16 → t.axis.entries.get? i = some
      { state := .off, group := 0, num := 1, den := 1, rem := 0, base := 0, offset := 0, target := 0, slew := 1000, corr := 0,
        corrUsed := 0, corrMax := 0, corrStep := 1000, ferrLimit := 16777216, decel := 1000, v := 0, setpoint := 0, feed := 0,
        flags := ⟨false, false, false, false, false⟩, mask := ⟨true, true, true, false, false⟩, lastActual := none, miss := 0,
        groupInUse := 0, offs := 0, disables := 0 }) ∧ t.axis.counters = {} ∧
    t.drive.next = none ∧ t.drive.poll = none ∧ (∀ i, i < 16 → t.drive.status.get? i = some none) ∧ t.drive.counters = {} ∧
    (∀ k, k < 64 → (t.trip.sources.getLsbD k = true ↔ k = 26 ∨ k = 27)) ∧ t.trip.changes = [] ∧ t.trip.filtered = 0 ∧
    (∀ i, i < 8 → t.trip.hold.get? i = some (if s.trip.pins.getLsbD i then none else some (t.now + 20000))) ∧
    t.trip.staging.length = 0 ∧ t.trip.active.length = 0 ∧
    (∀ i, i < 128 → t.trip.staging.terms.get? i = some term ∧ t.trip.active.terms.get? i = some term) ∧
    t.trip.own = 0 ∧ t.trip.seq = 0 ∧ t.trip.view = 0 ∧ t.trip.total = 0 ∧ t.trip.upstream = 0 ∧
    (∀ c, c < 32 → t.trip.held.get? c = some none ∧ t.trip.blank.get? c = some 0 ∧
      t.trip.actions.get? c = some { kind := .none, groups := 0, pins := 0, masterStop := false }) ∧
    (∀ n, n < 62 → t.trip.dedupe.get? n = some none) ∧ t.trip.outputs = 0 ∧ t.trip.counters = {} ∧
    t.image.memory = [] ∧ t.image.direction = .capture ∧ t.image.tap = .single ∧ t.image.delivery = none ∧ t.image.lastServed = 7 ∧
    t.lineOut = false ∧ t.image.released = none ∧ (∀ i, i < 2 → t.image.trigger.get? i = some none) ∧
    (∀ i, i < 8 → t.image.ctx i = {
      record := {
        mode := .off, base := 0, size := 0, length := 16, pixel := 1, order := .normal, destNode := 63, destCtx := 0, segment := 1024,
        pitch := 1048576, origin := 0, originNode := 63, originCtx := 0, damaged := .mark }
      work := {
        write := 0, read := 0, held := 0, nextLine := 0, expectedLine := none, capture := none, triggers := [], segmentsDone := 0,
        assembly := none }
      counters := {} }) ∧
    (∀ i, i < 2 → t.mark.entries.get? i = some {
      record := {
        enable := false, node := 63, axis := 0, phase := 0, window := 4096, first := 0, last := 0, dark := 0, minimum := 1, gain := 0 }
      search := {
        pending := false, found := false, miss := 0, status := .searching, lastError := none, lastCorrection := none,
        lastDark := none }
      counters := {} }) ∧
    (∀ n, n < 252 → t.console.tiles.get? n = some
      { state := .empty, permitted := 0, lastWriter := 63, version := none, content := .bytes [] }) ∧
    (∀ n, 252 ≤ n → n < 256 → ∃ content, t.console.tiles.get? n = some
      { state := .dirty, permitted := 63, lastWriter := if t.straps = 0 then 63 else t.straps.toNat, version := some 1,
        content := content }) ∧ TileLaw t ∧
    t.console.systemQueue = [252, 253, 254, 255] ∧ t.console.ordinaryQueue = [] ∧ t.console.inbound = [] ∧
    t.console.outbound = [] ∧ t.console.replies = [] ∧ t.console.sending = none ∧ t.console.counters = {} ∧
    t.forward.ring = .isolated ∧ t.forward.allowance = 16384 ∧ t.forward.consoleCap = 4096 ∧ t.forward.allowanceEff = 16384 ∧
    t.forward.consoleCapEff = 4096 ∧ t.forward.managementUsed = 0 ∧ t.forward.consoleUsed = 0 ∧ t.forward.sharedUsed = 0 ∧
    t.forward.horizon = t.now + 498000 ∧ t.forward.horizonHeld = false ∧ t.forward.management = [] ∧ t.forward.console = [] ∧
    t.forward.image = [] ∧ t.forward.counters = {} ∧
    t.election.state = .passive ∧ t.election.priority = 0 ∧ t.election.attempts = 0 ∧ t.election.claimTimer = none ∧
    t.election.listenTimer = none ∧ t.election.quiet = false ∧ t.election.conflictPlaced = false ∧ t.election.counters = {} ∧
    (∀ p, (t.port p).link.state = .acquire ∧ (t.port p).link.enabled = true ∧ (t.port p).link.rate = .full ∧
      (t.port p).link.attempt = 1 ∧ (t.port p).link.beenUp = false ∧ (t.port p).link.watchdog = some (t.now + 2000000) ∧
      (t.port p).link.retry = none ∧ (t.port p).link.identity = none ∧ (t.port p).link.frames = 0 ∧ (t.port p).link.errors = 0 ∧
      (t.port p).link.neighbour = none ∧ (t.port p).link.counters = {} ∧ (t.port p).trips = [] ∧ (t.port p).cycles = [] ∧
      (t.port p).transit = [] ∧ (t.port p).sending = none ∧ (t.port p).counters = {}) ∧
    t.agent.queue = [] ∧ t.agent.resetWait = none ∧ (∀ n, n < 62 → t.agent.permit.getLsbD n = true) ∧ t.agent.counters = {} ∧
    t.trip.pins = s.trip.pins ∧ t.image.lineValid = s.image.lineValid ∧ t.console.holdIn = s.console.holdIn ∧ t.pending = s.pending ∧
    t.resetEnd = t.now
  (∀ (s : State) (dt : Nat) (straps : BitVec 6), Answers (.powerOnReset dt (some straps)) s fun t =>
    t.now = s.now + dt ∧ t.straps = straps ∧ t.resetHeld = false ∧ t.toPins = 0 ∧
    (∀ p, t.portSends p = .acquisition .full) ∧ tabled s t) ∧
  (∀ (s : State) (dt : Nat), Answers (.powerOnReset dt none) s fun t =>
    t.now = s.now + dt ∧ t.straps = s.straps ∧ t.resetHeld = true ∧ t.toPins = 0xF ∧
    (∀ p, t.portSends p = .dark) ∧ tabled s t) ∧
  ∀ (s : State) (straps : BitVec 6), s.resetHeld = false →
    (∀ w, s.agent.resetWait = some w → ∃ dt, exec (.nodeResetBegin straps) s = exec (.powerOnReset dt (some straps)) s ∧
      s.now + dt = max s.now (match w.sent with
        | some x => min x w.deadline
        | none => w.deadline)) ∧
    (s.agent.resetWait = none → exec (.nodeResetBegin straps) s = .next s)

/-! ### The cycle (chapter 1) -/

/-- R7, R8, R11 to R14, R48, R84, R168, R169, R176: a substitute cycle at a node not in MASTER, its cycle unit whole, with all that its cycle
event hands on, and the claim step of a node in LISTENING whose cycle unit enters LOST with the quiet mark clear.
That every axis is computed in its old state, and only then the groups newly stopped take their report, is the model's reading
(assumption 25); that a written stop group comes into use before the computation is its choice (assumption 46), and so is that the event
happens at its instant, or at once where that has passed (assumption 7). -/
def Obligations.SubstituteCycleRule : Prop :=
  ∀ s : State, s.election.state ≠ .master → Completes .substituteCycle s fun t =>
    t.now = max s.now (if s.cycle.sync = .unsynced then s.cycle.expected
      else s.cycle.expected + s.cycle.workingPeriod.us * 1000 / 8) ∧
    t.cycle.number = s.cycle.number + 1 ∧ t.cycle.numberOrigin = .substitute ∧
    t.cycle.counters.substituteCycle = bump s.cycle.counters.substituteCycle ∧
    t.cycle.expected = s.cycle.expected
      + 1000 * (if s.cycle.sync = .unsynced then s.cycle.configuredPeriod.us else s.cycle.workingPeriod.us) ∧
    (s.cycle.sync = .unsynced → t.cycle.sync = .unsynced ∧ t.cycle.vlast = s.cycle.vlast) ∧
    (s.cycle.sync ≠ .unsynced →
      t.cycle.substitutes = min (s.cycle.substitutes + 1) 3 ∧
      t.cycle.sync = (if s.cycle.substitutes < 2 then .coasting else .lost) ∧
      t.cycle.vlast =
        if s.cycle.substitutes < 2 then s.cycle.vlast
        else if s.cycle.vlast.natAbs ≤ s.cycle.coast then 0
        else if 0 < s.cycle.vlast then s.cycle.vlast - s.cycle.coast else s.cycle.vlast + s.cycle.coast) ∧
    t.cycle.lastStep = clampMag s.cycle.jump (extDiff s.cycle.mloc (s.cycle.mloc + BitVec.ofInt 40 t.cycle.vlast)) ∧
    t.cycle.mloc = s.cycle.mloc + BitVec.ofInt 40 t.cycle.lastStep ∧
    (let u := s.cycle
    let target := u.mloc + BitVec.ofInt 40 t.cycle.vlast
    let bites : Prop := u.jump < (extDiff u.mloc target).natAbs
    t.cycle = { u with
      number := u.number + 1
      numberOrigin := .substitute
      substitutes := if u.sync = .unsynced then u.substitutes else t.cycle.substitutes
      sync := t.cycle.sync
      vlast := t.cycle.vlast
      workingPeriod := if u.sync = .unsynced then u.configuredPeriod else u.workingPeriod
      expected := t.cycle.expected
      mloc := t.cycle.mloc
      lastStep := t.cycle.lastStep
      lag := extDiff t.cycle.mloc target
      jumpFlag := t.cycle.jumpFlag
      counters := { u.counters with
        substituteCycle := bump u.counters.substituteCycle
        masterJump := t.cycle.counters.masterJump
        alignmentShort := t.cycle.counters.alignmentShort } } ∧
    (bites → t.cycle.jumpFlag = true ∧ t.cycle.counters.masterJump = bump u.counters.masterJump) ∧
    (¬bites → t.cycle.jumpFlag = u.jumpFlag ∧ t.cycle.counters.masterJump = u.counters.masterJump)) ∧
    CycleEventHandsOn s t s.cycle.mloc
      ((s.cycle.expected : Int) + 1000 * (s.cycle.outDelay : Int) - 1000 * ((match s.cycle.lastPort with
        | some .a => s.cycle.dA
        | some .b => s.cycle.dB
        | none => 0 : Nat) : Int)) none ∧
    (let entersLost : Prop := s.cycle.sync ≠ .lost ∧ t.cycle.sync = .lost
    let e : ElectionUnit := { s.election with conflictPlaced := false }
    (entersLost → e.state = .listening → e.quiet = false → ClaimStepTaken s t { e with listenTimer := none }) ∧
    (¬entersLost ∨ e.state ≠ .listening ∨ e.quiet = true → t.election = e ∧
      t.forward.counters.managementOverflow = s.forward.counters.managementOverflow)) ∧
    KeepsAllBut [.cycle, .axis, .drive, .trip, .image, .forward, .election] s t

/-- R11: the step of Mloc is clamped to J; the lag is 0 and MASTER_JUMP stays when the clamp does not bite, and when it bites the
flag is set and counted. -/
def Obligations.MlocFollowsByAtMostJ : Prop :=
  ∀ (u : CycleUnit) (target : ExtPos),
    (u.follow target).mloc = u.mloc + BitVec.ofInt 40 (u.follow target).lastStep ∧
    (u.follow target).lastStep.natAbs ≤ u.jump ∧
    (u.follow target).lag = extDiff (u.follow target).mloc target ∧
    ((extDiff u.mloc target).natAbs ≤ u.jump →
      (u.follow target).mloc = target ∧ (u.follow target).lag = 0 ∧ (u.follow target).jumpFlag = u.jumpFlag ∧
      (u.follow target).counters = u.counters) ∧
    (u.jump < (extDiff u.mloc target).natAbs →
      (u.follow target).lastStep.natAbs = u.jump ∧ (u.follow target).jumpFlag = true ∧
      (u.follow target).counters = { u.counters with masterJump := bump u.counters.masterJump })

/-- R4 to R6, R9 to R13, R48, R84, R168, R169: a first copy taken in SYNCED at a node with an address; and what a copy of each class of R4
does to the cycle unit, in every sync state, at a node with an address that consumes it and at a node without one, with all that the cycle
event of a first, skew or starting copy hands on, and with what the trip unit takes from a late one. The slot captured for R2 as the copy is
forwarded is left out of the comparison of the cycle unit.
That every axis is computed in its old state, and only then the groups newly stopped take their report, is the model's reading
(assumption 25); that a written stop group comes into use before the computation is its choice (assumption 46). -/
def Obligations.FirstCopyIsTaken : Prop :=
  (∀ (s : State) (dt : Nat) (p : PortId) (bytes : List Byte) (f : Frame) (rate : Rate) (period : Period),
    Arrives s p bytes f → s.hasAddress = true → f.kind = .cycle → f.dest = 0 → f.origin ≠ s.addressByte →
    s.election.state ≠ .master → s.cycle.sync = .synced → (readCycle f.data).number = s.cycle.number + 1 →
    (readCycle f.data).rate = some rate → (readCycle f.data).period = some period → (readCycle f.data).master = f.origin →
    Completes (.frameArrival dt p bytes) s fun t =>
      let c := readCycle f.data
      t.now = s.now + dt ∧ t.cycle.sync = .synced ∧ t.cycle.number = s.cycle.number + 1 ∧ t.cycle.numberOrigin = .real ∧
      t.cycle.substitutes = 0 ∧ t.cycle.vlast = c.v ∧ t.cycle.lastTarget = c.vt ∧ t.cycle.workingPeriod = period ∧
      t.cycle.outDelay = c.outDelay ∧ t.cycle.ringRate = rate ∧ t.cycle.lastTotal = c.total ∧ t.cycle.lastArea = c.previous ∧
      t.cycle.lastPort = some p ∧ t.cycle.lastArrival = t.now ∧ t.cycle.expected = t.now + period.us * 1000 ∧
      t.cycle.lastStep = clampMag s.cycle.jump (extDiff s.cycle.mloc c.position) ∧
      t.cycle.mloc = s.cycle.mloc + BitVec.ofInt 40 t.cycle.lastStep ∧
      t.cycle.counters.earlyCopy =
        (if t.now + s.cycle.workingPeriod.us * 1000 / 8 < s.cycle.expected then bump s.cycle.counters.earlyCopy
          else s.cycle.counters.earlyCopy) ∧
      ComputedAndReported s t t.cycle.lastStep ∧ t.trip.total = c.total ∧
      AccountsRenewed s t ∧
      KeepsAllBut [.cycle, .axis, .drive, .trip, .image, .forward, .election, .portA, .portB] s t) ∧
  ∀ (s : State) (dt : Nat) (p : PortId) (bytes : List Byte) (f : Frame),
    Arrives s p bytes f → f.kind = .cycle → s.election.state ≠ .master →
    s.hasAddress = false ∨ (f.origin ≠ s.addressByte ∧ (f.dest = 0 ∨ f.dest = s.addressByte)) →
    Completes (.frameArrival dt p bytes) s fun t =>
      let c := readCycle f.data
      let u := s.cycle
      let k := u.counters
      let d := extDiff u.mloc c.position
      let left (v : CycleUnit) : Prop := { t.cycle with capture := u.capture } = v
      let upstream := areaWord c.current (if s.hasAddress then s.address else 0)
      let overflows : Prop := t.forward.counters.managementOverflow = s.forward.counters.managementOverflow
      let stale : Prop := left { u with counters := { k with staleCopy := bump k.staleCopy } } ∧
        KeepsAllBut [.cycle, .election, .portA, .portB] s t
      let second : Prop := left u ∧ KeepsAllBut [.cycle, .election, .portA, .portB] s t
      let late : Prop := ViewFormed (s.trip.takeTotals c.total upstream) s t ∧
        (∀ rate, c.rate = some rate → left { u with
          ringRate := rate, lastTotal := c.total, lastArea := c.previous, counters := { k with lateCopy := bump k.lateCopy } }) ∧
        KeepsAllBut [.cycle, .axis, .trip, .election, .portA, .portB] s t
      let taken : Prop := overflows ∧ t.cycle.sync = .synced ∧ t.cycle.number = c.number ∧ t.cycle.numberOrigin = .real ∧
        t.cycle.substitutes = 0 ∧ t.cycle.vlast = c.v ∧ t.cycle.lastTarget = c.vt ∧ t.cycle.outDelay = c.outDelay ∧
        c.rate = some t.cycle.ringRate ∧ c.period = some t.cycle.workingPeriod ∧ t.cycle.lastTotal = c.total ∧
        t.cycle.lastArea = c.previous ∧ t.cycle.lastPort = some p ∧ t.cycle.lastArrival = t.now ∧
        t.cycle.expected = t.now + t.cycle.workingPeriod.us * 1000 ∧ t.election.conflictPlaced = false ∧
        CycleEventHandsOn s t (if u.sync = .unsynced then c.position else u.mloc)
          ((t.now : Int) + 1000 * (c.outDelay : Int) - 1000 * ((if p = .a then u.dA else u.dB : Nat) : Int))
          (some (c.total, upstream)) ∧
        KeepsAllBut [.cycle, .axis, .drive, .trip, .image, .forward, .election, .portA, .portB] s t
      let start : Prop := taken ∧ t.cycle.mloc = c.position ∧ t.cycle.lastStep = 0 ∧ t.cycle.jumpFlag = u.jumpFlag ∧
        t.cycle.counters = { k with alignmentShort := t.cycle.counters.alignmentShort }
      let real (skew : Bool) : Prop := taken ∧
        t.cycle.lastStep = clampMag u.jump d ∧ t.cycle.mloc = u.mloc + BitVec.ofInt 40 t.cycle.lastStep ∧
        (d.natAbs ≤ u.jump → t.cycle.jumpFlag = u.jumpFlag) ∧ (u.jump < d.natAbs → t.cycle.jumpFlag = true) ∧
        t.cycle.counters = { k with
          skew := if skew then bump k.skew else k.skew
          earlyCopy := if t.now + u.workingPeriod.us * 1000 / 8 < u.expected then bump k.earlyCopy else k.earlyCopy
          masterJump := if u.jump < d.natAbs then bump k.masterJump else k.masterJump
          alignmentShort := t.cycle.counters.alignmentShort }
      let good : Prop := c.rate.isSome = true ∧ c.period.isSome = true ∧ c.master = f.origin
      t.now = s.now + dt ∧ (¬good → stale) ∧
      (good →
        (u.sync = .unsynced → start) ∧
        (u.sync ≠ .unsynced → c.number = u.number + 1 → real false) ∧
        (u.sync = .synced → c.number = u.number → u.numberOrigin = .real → second) ∧
        (u.sync = .synced → c.number = u.number → u.numberOrigin = .substitute → late) ∧
        (u.sync = .synced → c.number ≠ u.number → newer c.number u.number = false → stale) ∧
        (u.sync = .synced → c.number ≠ u.number + 1 → newer c.number u.number = true → real true) ∧
        (u.sync = .coasting ∨ u.sync = .lost → c.number = u.number → late) ∧
        (u.sync = .coasting ∨ u.sync = .lost → c.number ≠ u.number → c.number ≠ u.number + 1 → real true))

/-- R1, R13, R15, R18, R19, R21, R48, R84, R168, R169: a master's cycle event: the generator steps, the round is merged (what the merge
makes, MergeOfReturnedCopies says), the cycle frame is handed to each port that is UP, and the cycle event hands on what R12 lists. The
velocity sent is within J, and differs from the one before by at most the larger of a and dm (the law of R15, for a V that was within J).
That its number counts as sent with no port UP too is the model's choice (assumption 72), and so are the bits of the slot to which R173
gives no meaning (assumption 83).
That every axis is computed in its old state, and only then the groups newly stopped take their report, is the model's reading
(assumption 25); that a written stop group comes into use before the computation is its choice (assumption 46), and so is that the event
happens at its instant, or at once where that has passed (assumption 7). -/
def Obligations.MasterCycleEventRule : Prop :=
  ∀ s : State, s.election.state = .master → Completes .masterCycleEvent s fun t =>
    t.now = max s.now s.cycle.expected ∧
    t.cycle.gen.vt = (if masterStopInView s.trip then 0 else s.cycle.gen.vt) ∧
    t.cycle.gen.v = clampMag s.cycle.jump (approach s.cycle.gen.v t.cycle.gen.vt
      (if masterStopInView s.trip then s.cycle.gen.decel else s.cycle.gen.accel)) ∧
    t.cycle.gen.position = s.cycle.gen.position + BitVec.ofInt 40 t.cycle.gen.v ∧
    t.cycle.gen.v.natAbs ≤ s.cycle.jump ∧
    (s.cycle.gen.v.natAbs ≤ s.cycle.jump →
      (t.cycle.gen.v - s.cycle.gen.v).natAbs ≤ max s.cycle.gen.accel s.cycle.gen.decel) ∧
    (let u := s.cycle
    let m := u.merge
    let delay := min u.dOut (u.configuredPeriod.us / 2)
    let d := extDiff u.mloc t.cycle.gen.position
    let bites : Prop := u.jump < d.natAbs
    t.cycle.lastStep = clampMag u.jump d ∧
    (∃ x, SlotContent s t.cycle.number x ∧
      t.cycle = { u with
        gen := { u.gen with position := t.cycle.gen.position, v := t.cycle.gen.v, vt := t.cycle.gen.vt }
        number := u.number + 1
        numberOrigin := .real
        capture := some (u.number + 1, x)
        returned := m.returned
        frameTotal := m.frameTotal
        frameArea := m.frameArea
        sentNumber := some (u.number + 1)
        sentSpeed := some (t.cycle.gen.v, t.cycle.gen.vt)
        workingPeriod := u.configuredPeriod
        expected := t.now + 1000 * u.configuredPeriod.us
        mloc := u.mloc + BitVec.ofInt 40 t.cycle.lastStep
        lastStep := t.cycle.lastStep
        lag := extDiff t.cycle.mloc t.cycle.gen.position
        jumpFlag := t.cycle.jumpFlag
        counters := { u.counters with
          roundLost := m.counters.roundLost
          masterJump := t.cycle.counters.masterJump
          alignmentShort := t.cycle.counters.alignmentShort } } ∧
      ∀ p, HandedToCycleQueue s t p (Frame.own s.addressByte .cycle 0 (.bytes
        (writeCycle (u.number + 1) u.ringRate u.configuredPeriod s.addressByte t.cycle.gen.position t.cycle.gen.v t.cycle.gen.vt delay
          m.frameTotal m.frameArea (SlotArea.empty.set (s.address - 1) x))))) ∧
    (bites → t.cycle.jumpFlag = true ∧ t.cycle.counters.masterJump = bump u.counters.masterJump) ∧
    (¬bites → t.cycle.jumpFlag = u.jumpFlag ∧ t.cycle.counters.masterJump = u.counters.masterJump) ∧
    CycleEventHandsOn s t u.mloc ((t.now : Int) + 1000 * (delay : Int)) (some (m.frameTotal, 0))) ∧
    t.election = { s.election with conflictPlaced := false } ∧
    t.forward.counters.managementOverflow = s.forward.counters.managementOverflow ∧
    KeepsAllBut [.cycle, .axis, .drive, .trip, .image, .forward, .election, .portA, .portB] s t

/-- R17, R18: the merge of a round. With returned copies the previous-round area takes, slot by slot, the first one written, and the trip
total is formed of the written slots; with none, both stay and the round is counted lost; at the first event of a term nothing is merged.
And the return of an own cycle frame: a master keeps the area of one with the number it sent last, and counts any other late. That a node
not in MASTER discards it, unheard by its election unit, is the model's choice (assumption 67). -/
def Obligations.MergeOfReturnedCopies : Prop :=
  (∀ u : CycleUnit, u.sentNumber = none → u.merge = u) ∧
  (∀ (s : State) (dt : Nat) (p : PortId) (bytes : List Byte) (f : Frame),
    Arrives s p bytes f → s.hasAddress = true → f.origin = s.addressByte → f.kind = .cycle →
    Completes (.frameArrival dt p bytes) s fun t =>
      let c := readCycle f.data
      let u := s.cycle
      (s.election.state = .master → u.sentNumber = some c.number → t.cycle = { u with returned := u.returned ++ [c.current] }) ∧
      (s.election.state = .master → u.sentNumber ≠ some c.number →
        t.cycle = { u with counters := { u.counters with lateReturn := bump u.counters.lateReturn } }) ∧
      (s.election.state ≠ .master → t.cycle = u) ∧
      KeepsAllBut [.cycle, portBlock p] s t) ∧
  ∀ (u : CycleUnit) (n : BitVec 16), u.sentNumber = some n →
    (u.returned = [] → u.merge = { u with counters := { u.counters with roundLost := bump u.counters.roundLost } }) ∧
    (u.returned ≠ [] →
      (∀ i, i < 62 → ∀ (l r : List SlotArea) (a : SlotArea), u.returned = l ++ a :: r →
        (∀ b ∈ l, slotWritten (b.getD i 0) = false) → slotWritten (a.getD i 0) = true → u.merge.frameArea.get? i = a.get? i) ∧
      (∀ i, i < 62 → (∀ a ∈ u.returned, slotWritten (a.getD i 0) = false) → u.merge.frameArea.get? i = some 0) ∧
      (∀ c, c < 32 → (u.merge.frameTotal.getLsbD c = true ↔
        ∃ i, i < 62 ∧ slotWritten (u.merge.frameArea.getD i 0) = true ∧ (slotWord (u.merge.frameArea.getD i 0)).getLsbD c = true)) ∧
      u.merge.counters = u.counters ∧ u.merge.returned = [])

/-- R16: SET SPEED. That a J written since the last cycle event is the one that clamps is the model's choice (assumption 62), and so is
that STATE is answered where both checks fail (assumption 17), and that the bits of the answer's last byte beside the clamped mark are 0
(assumption 83). What data shorter than 6 bytes gets, RequestsAreTakenAndChecked says. -/
def Obligations.SetSpeedRule : Prop :=
  ∀ (s : State) (dt : Nat) (r : Request) (rest : List Request), Due s r rest .setSpeed → 6 ≤ r.data.length →
    Completes (.setSpeed dt) s fun t =>
      TakenFromQueue s t rest ∧
      (if s.election.state ≠ .master ∨ masterStopInView s.trip = true then
        t.cycle = s.cycle ∧ Answered s t s.forward.management r .state noData false
      else if r.acceleration = 0 then t.cycle = s.cycle ∧ Answered s t s.forward.management r .range noData false
      else
        t.cycle = { s.cycle with gen := { s.cycle.gen with
          accel := r.acceleration, vt := clampMag s.cycle.jump r.targetSpeed } } ∧
        Answered s t s.forward.management r .ok (.bytes (beInt 4 (clampMag s.cycle.jump r.targetSpeed)
          ++ [if clampMag s.cycle.jump r.targetSpeed = r.targetSpeed then 0 else 1])) false) ∧
      KeepsAllBut [.cycle, .agent, .console, .forward] s t

/-! ### The NODE item (R11, R14, R101, R171, R175, R194) -/

/-- The values that a WRITE of the NODE item is accepted with (R14, R101, R171, R175, R194), and the status of one that is not: RANGE where
only named values lie out of their ranges, STATE where only the state of the node, or a field that may only be read, stands against it.
Which of the two a write gets that fails checks of both kinds is the model's choice (assumption 16), and the statement does not say it.
That a field which may only be read is refused, where it is not the strap address, is the model's choice too (assumption 82). -/
def Obligations.NodeWriteIsAcceptedExactly : Prop :=
  ∀ (s : State) (r : Request) (w : NodeWrite),
    let inRange : Prop := (∀ x, w.cycle.period = some x → x = 250 ∨ x = 500 ∨ x = 1000 ∨ x = 2000) ∧
    (∀ x, w.cycle.jump = some x → 1 ≤ x ∧ x ≤ 4194304) ∧
    (∀ x, w.cycle.coast = some x → 1 ≤ x ∧ x ≤ 65535) ∧
    (∀ x, w.cycle.dA = some x → x ≤ 1000) ∧ (∀ x, w.cycle.dB = some x → x ≤ 1000) ∧
    (∀ x, w.cycle.dOut = some x → x ≤ 1000) ∧ (∀ x, w.cycle.accel = some x → 1 ≤ x ∧ x ≤ 65535) ∧
    (∀ x, w.cycle.decel = some x → 1 ≤ x ∧ x ≤ 65535) ∧
    w.direction ≠ some none ∧ w.tap ≠ some none ∧
    (∀ x, w.allowance = some x → x ≤ 65535) ∧ (∀ x, w.consoleCap = some x → x ≤ 65535) ∧
    (∀ x, w.priority = some x → x ≤ 15)
    let allowed : Prop := (∀ x, w.cycle.jump = some x → s.election.state = .master → s.cycle.gen.v.natAbs ≤ x) ∧
    (w.direction ≠ none → ∀ i, i < 8 → (s.image.ctx i).record.mode = .off) ∧
    (w.tap ≠ none → (s.image.ctx 0).record.mode ≠ .source ∧ (s.image.ctx 1).record.mode ≠ .source) ∧
    (w.priority = some 0 → s.election.state ≠ .master) ∧
    (∀ m, w.permit = some m → (r.loc = true ∧ s.hasAddress = false) ∨ m.getLsbD (r.origin.toNat - 1) = true) ∧
    w.readOnly = false
    (checkNodeWrite s r w = .ok ↔ inRange ∧ allowed) ∧
    (¬inRange → allowed → checkNodeWrite s r w = .range) ∧ (inRange → ¬allowed → checkNodeWrite s r w = .state)

/-- The six rows that write the NODE item, each about its own fields: a refused WRITE is answered with the status of its check and changes
none of the settings named in it (R14, R194); an accepted one answers OK and sets exactly the named fields, the cycle, image, election and
agent units being said whole, the forwarding unit with the answer (R11, R14, R101, R171, R194); the election follows a written priority
(R175). That the listen timer is 40 ms at a node that has been MASTER without ever taking a cycle copy, which is not UNSYNCED, is the
model's choice (assumption 80). A WRITE of the NODE item that names no field of the six rows is the row WRITE's: it is STATE, changing
nothing, for one that names the strap address (R192, R194). That it is STATE for one that names another field which may only be read
(assumption 82), and for one that names no field (assumption 71), is the model's choice; in all three the operand holds no field of the NODE
item. -/
def Obligations.NodeWriteRowsSetTheNamedFields : Prop :=
  (∀ (s : State) (dt : Nat) (w : NodeWrite) (r : Request) (rest : List Request) (c : Instr),
    (c = .nodeSettingsWrite dt (some w) ∧ w.cycle ≠ {}) ∨
      (c = .masterJumpClear dt (some w) ∧ (w.jumpFlag.isSome = true ∨ w.jumpMask.isSome = true)) ∨
      (c = .imagePortSettingWrite dt (some w) ∧ (w.direction.isSome = true ∨ w.tap.isSome = true)) ∨
      (c = .allowanceSettingWrite dt (some w) ∧ (w.allowance.isSome = true ∨ w.consoleCap.isSome = true)) ∨
      (c = .priorityWrite dt (some w) ∧ w.priority.isSome = true) ∨
      (c = .writePermitMaskWrite dt (some w) ∧ w.permit.isSome = true) →
    Due s r rest .write → Names r .node → Completes c s fun t =>
      (checkNodeWrite s r w ≠ .ok → Refused s t r rest (checkNodeWrite s r w)) ∧
      (checkNodeWrite s r w = .ok →
        t.cycle.configuredPeriod = ((w.cycle.period.bind Period.ofMicros).getD s.cycle.configuredPeriod) ∧
        t.cycle.jump = w.cycle.jump.getD s.cycle.jump ∧ t.cycle.coast = w.cycle.coast.getD s.cycle.coast ∧
        t.cycle.dA = w.cycle.dA.getD s.cycle.dA ∧ t.cycle.dB = w.cycle.dB.getD s.cycle.dB ∧
        t.cycle.dOut = w.cycle.dOut.getD s.cycle.dOut ∧ t.cycle.gen.accel = w.cycle.accel.getD s.cycle.gen.accel ∧
        t.cycle.gen.decel = w.cycle.decel.getD s.cycle.gen.decel ∧
        t.cycle.gen.vt = (if s.election.state = .master ∧ w.cycle.jump.isSome = true
          then clampMag t.cycle.jump s.cycle.gen.vt else s.cycle.gen.vt) ∧
        t.cycle.jumpFlag = (s.cycle.jumpFlag && !(w.jumpFlag == some true)) ∧
        t.cycle.jumpMasked = w.jumpMask.getD s.cycle.jumpMasked ∧
        t.cycle = { s.cycle with
          configuredPeriod := t.cycle.configuredPeriod
          jump := t.cycle.jump
          coast := t.cycle.coast
          dA := t.cycle.dA
          dB := t.cycle.dB
          dOut := t.cycle.dOut
          gen := { s.cycle.gen with accel := t.cycle.gen.accel, decel := t.cycle.gen.decel, vt := t.cycle.gen.vt }
          jumpFlag := t.cycle.jumpFlag
          jumpMasked := t.cycle.jumpMasked } ∧
        (∀ d, w.direction = some (some d) → t.image.direction = d) ∧ (w.direction = none → t.image.direction = s.image.direction) ∧
        (∀ m, w.tap = some (some m) → t.image.tap = m) ∧ (w.tap = none → t.image.tap = s.image.tap) ∧
        t.image.still = { s.image.still with direction := t.image.direction, tap := t.image.tap } ∧
        t.forward.allowance = w.allowance.getD s.forward.allowance ∧ t.forward.consoleCap = w.consoleCap.getD s.forward.consoleCap ∧
        t.forward.allowanceEff = s.forward.allowanceEff ∧ t.forward.consoleCapEff = s.forward.consoleCapEff ∧
        (let e := { s.election with priority := w.priority.getD s.election.priority }
        (w.priority = none → t.election = e) ∧
        (∀ n, w.priority = some n → n ≠ 0 → e.state = .passive → s.hasAddress = true →
          let wait := if s.cycle.sync = .unsynced then 10000000 else 40000000
          t.election = { e with
            state := .listening
            claimTimer := none
            listenValue := wait
            listenTimer := if s.forward.ring = .isolated then none else some (t.now + wait) }) ∧
        (∀ n, w.priority = some n → n ≠ 0 → e.state ≠ .passive ∨ s.hasAddress = false → t.election = e) ∧
        (w.priority = some 0 → e.state = .passive → t.election = e) ∧
        (w.priority = some 0 → e.state ≠ .passive → t.election = { e with
          state := .passive, claimTimer := none, listenTimer := none, attempts := 0, quiet := false })) ∧
        t.agent = { s.agent with queue := rest, permit := w.permit.getD s.agent.permit } ∧
        Answered { s with forward := { s.forward with allowance := t.forward.allowance, consoleCap := t.forward.consoleCap } } t
          s.forward.management r .ok noData false ∧
        KeepsAllBut [.cycle, .image, .forward, .election, .console, .agent] s t)) ∧
  ∀ (s : State) (dt : Nat) (w : PlainWrite) (r : Request) (rest : List Request), Due s r rest .write → Names r .node →
    Completes (.write dt (some w)) s fun t => Refused s t r rest .state

/-! ### The axis table (chapter 2) -/

/-- R35, R36, R38, R39: what ENABLE, ENGAGE, DISABLE and RELEASE do in each state of the axis. The stop group that ENGAGE asks about is
the one in use since the last cycle event: the model's choice (assumption 46), and so is that RELEASE keeps the status the drive gave last
(assumption 73). The model counts how often an axis enters OFF and how often it is disabled (assumption 47). -/
def Obligations.AxisRequestRules : Prop :=
  ∀ (s : State) (dt : Nat) (r : Request) (rest : List Request) (e : AxisEntry),
    Due s r rest .axis → Names r .axis → s.axis.entries.get? r.entry = some e →
    (r.command = some .enable → Completes (.enable dt) s fun t =>
      if e.state = .off then AxisAnswered s t r rest .ok { e with state := .disabled } else AxisAnswered s t r rest .state e) ∧
    (r.command = some .disable → Completes (.disable dt) s fun t =>
      if e.state = .off then AxisAnswered s t r rest .state e
      else if e.state = .disabled then AxisAnswered s t r rest .ok e
      else AxisAnswered s t r rest .ok { e with state := .disabled, rem := 0, v := 0, disables := e.disables + 1 }) ∧
    (r.command = some .release → Completes (.release dt) s fun t =>
      if e.state = .disabled ∨ e.state = .stopped then
        AxisAnswered s t r rest .ok { e with
          state := .off, rem := 0, v := 0, lastActual := none, miss := 0, offs := e.offs + 1 }
      else AxisAnswered s t r rest .state e) ∧
    (r.command = some .engage → Completes (.engage dt) s fun t =>
      let ready : Prop := (e.state = .disabled ∨ e.state = .stopped) ∧ s.cycle.sync = .synced ∧
        (if s.election.state = .master then s.cycle.gen.v = 0 else s.cycle.vlast = 0) ∧
        (∀ c, c < 32 → s.trip.view.getLsbD c = true →
          ((s.trip.actions.getD c {}).kind = .axisStop ∨ (s.trip.actions.getD c {}).kind = .torqueOff) →
          (s.trip.actions.getD c {}).groups.getLsbD e.groupInUse = false) ∧
        (e.state = .disabled → e.lastActual ≠ none)
      (ready → AxisAnswered s t r rest .ok { e with
        state := .follow
        rem := 0
        v := 0
        base := match e.state, e.lastActual with
          | .disabled, some a => a - wrap32 (e.offset + e.corr)
          | _, _ => e.base }) ∧
      (¬ready → AxisAnswered s t r rest .state e))

/-- R37: STOP; the last q is the v of the last computation in FOLLOW, and an axis engaged since then has v = 0. -/
def Obligations.StopRule : Prop :=
  (∀ (s : State) (dt : Nat) (r : Request) (rest : List Request) (e : AxisEntry),
    Due s r rest .axis → Names r .axis → r.command = some .stop → s.axis.entries.get? r.entry = some e →
    Completes (.stop dt) s fun t =>
      match e.state with
      | .follow => AxisAnswered s t r rest .ok { e with state := .stopping }
      | .stopping => AxisAnswered s t r rest .ok e
      | .stopped => AxisAnswered s t r rest .ok e
      | .disabled => AxisAnswered s t r rest .state e
      | .off => AxisAnswered s t r rest .state e) ∧
  ∀ (e : AxisEntry) (step : Int),
    (e.state = .follow → (e.compute step).v = (step * e.num + e.rem) / (e.den : Int)) ∧
    e.engage.v = 0 ∧
    (e.state = .stopping → e.v = 0 → (e.compute step).state = .stopped ∧ (e.compute step).base = e.base)

/-- R23, R24: the values that a WRITE of an AXIS item is accepted with; `stopped g` says that a channel in the view stops group
`g`. The rules do not order the checks of one WRITE: that every check that gives RANGE comes before those that give STATE is
the model's choice (assumption 16), with STATE for a field that may only be read whatever value it is given, and so is that a write which
names no field is accepted (assumption 71). -/
def Obligations.AxisWriteIsAcceptedExactly : Prop :=
  ∀ (e : AxisEntry) (w : AxisWrite) (stopped : Nat → Bool),
    (e.checkWrite w stopped = .ok ↔
      (∀ x, w.group = some x → x ≤ 3) ∧ (∀ x, w.num = some x → -32768 ≤ x ∧ x ≤ 32767 ∧ x ≠ 0) ∧
      (∀ x, w.den = some x → 1 ≤ x ∧ x ≤ 65535) ∧ (∀ x, w.offset = some x → -2147483648 ≤ x ∧ x ≤ 2147483647) ∧
      (∀ x, w.target = some x → -2147483648 ≤ x ∧ x ≤ 2147483647) ∧ (∀ x, w.slew = some x → 1 ≤ x ∧ x ≤ 65535) ∧
      (∀ x, w.corrMax = some x → x ≤ 16777216) ∧ (∀ x, w.corrStep = some x → 1 ≤ x ∧ x ≤ 65535) ∧
      (∀ x, w.ferrLimit = some x → 1 ≤ x ∧ x ≤ 16777216) ∧ (∀ x, w.decel = some x → 1 ≤ x ∧ x ≤ 65535) ∧
      w.readOnly = false ∧
      (e.state = .follow ∨ e.state = .stopping → w.num = none ∧ w.den = none) ∧
      (e.state = .follow → ∀ g, w.group = some g → stopped g = false) ∧
      (∀ c, w.corr = some c → c.natAbs ≤ w.corrMax.getD e.corrMax) ∧
      (e.state = .off → ∀ x y, w.offset = some x → w.target = some y → x = y) ∧
      (e.state ≠ .off → w.offset = none)) ∧
    (∀ x, w.num = some x → x = 0 → e.checkWrite w stopped = .range) ∧
    (∀ x, w.den = some x → x = 0 → e.checkWrite w stopped = .range) ∧
    (∀ c, w.corr = some c → w.corrMax.getD e.corrMax < c.natAbs → e.checkWrite w stopped = .range) ∧
    (e.state = .off → ∀ x y, w.offset = some x → w.target = some y → x ≠ y → e.checkWrite w stopped = .range) ∧
    (e.checkWrite w stopped = .ok ∨ e.checkWrite w stopped = .range ∨ e.checkWrite w stopped = .state)

/-- The five rows that write an AXIS item: an accepted WRITE answers OK and sets exactly the named fields (R23 to R25, R41, R42); a
refused one changes nothing. A written stop group is used from the next cycle event (R23), so the group in use stays (assumption 46). A
write that both lowers Cmax below the magnitude of C and marks CLAMP to be cleared leaves CLAMP open (assumption 18); its other effects
are the same. That a write which names no field is answered OK and changes nothing is the model's choice (assumption 71). -/
def Obligations.AxisWriteRowsSetTheNamedFields : Prop :=
  ∀ (s : State) (dt : Nat) (w : AxisWrite) (r : Request) (rest : List Request) (c : Instr) (e : AxisEntry),
    c = .axisWrite dt (some w) ∨
      (c = .offsetWrite dt (some w) ∧ (w.offset.isSome = true ∨ w.target.isSome = true)) ∨
      (c = .cmaxWrite dt (some w) ∧ w.corrMax.isSome = true) ∨
      (c = .axisFlagClear dt (some w) ∧ w.clear.isSome = true) ∨
      (c = .axisMaskWrite dt (some w) ∧ w.mask.isSome = true) →
    Due s r rest .write → Names r .axis → s.axis.entries.get? r.entry = some e →
    Completes c s fun t =>
      (e.checkWrite w (groupStopped s.trip) ≠ .ok → AxisAnswered s t r rest (e.checkWrite w (groupStopped s.trip)) e) ∧
      (e.checkWrite w (groupStopped s.trip) = .ok → ∃ x : AxisEntry, AxisAnswered s t r rest .ok x ∧
        x.state = e.state ∧ x.base = e.base ∧ x.corrUsed = e.corrUsed ∧ x.v = e.v ∧ x.setpoint = e.setpoint ∧ x.feed = e.feed ∧
        x.lastActual = e.lastActual ∧ x.miss = e.miss ∧ x.groupInUse = e.groupInUse ∧ x.offs = e.offs ∧ x.disables = e.disables ∧
        x.group = w.group.getD e.group ∧ x.num = w.num.getD e.num ∧ x.den = w.den.getD e.den ∧
        x.rem = (if w.den.isSome = true then 0 else e.rem) ∧
        x.slew = w.slew.getD e.slew ∧ x.corrMax = w.corrMax.getD e.corrMax ∧ x.corrStep = w.corrStep.getD e.corrStep ∧
        x.ferrLimit = w.ferrLimit.getD e.ferrLimit ∧ x.decel = w.decel.getD e.decel ∧ x.mask = w.mask.getD e.mask ∧
        (e.state ≠ .off → x.offset = e.offset ∧ x.target = w.target.getD e.target) ∧
        (e.state = .off → w.offset = none → w.target = none → x.offset = e.offset ∧ x.target = e.target) ∧
        (e.state = .off → ∀ o, w.offset = some o ∨ w.target = some o → x.offset = o ∧ x.target = o) ∧
        (∀ v, w.corr = some v → x.corr = v) ∧
        (w.corr = none → w.corrMax = none → x.corr = e.corr) ∧
        (∀ m, w.corr = none → w.corrMax = some m → x.corr = clampMag m e.corr) ∧
        x.flags.sat = (e.flags.sat && !(w.clear.getD {}).sat) ∧ x.flags.ferr = (e.flags.ferr && !(w.clear.getD {}).ferr) ∧
        x.flags.silent = (e.flags.silent && !(w.clear.getD {}).silent) ∧
        x.flags.dfault = (e.flags.dfault && !(w.clear.getD {}).dfault) ∧
        (¬(w.corr = none ∧ w.corrMax.any (fun m => decide (m < e.corr.natAbs)) = true) →
          x.flags.clamp = (e.flags.clamp && !(w.clear.getD {}).clamp)) ∧
        (w.corr = none → w.corrMax.any (fun m => decide (m < e.corr.natAbs)) = true → (w.clear.getD {}).clamp = false →
          x.flags.clamp = true))

/-- R27, R28, R30: the computation of an axis in FOLLOW, and the second law of R27 over any number of cycle events: no master count
is lost in the gear. -/
def Obligations.GearRule : Prop :=
  (∀ (e : AxisEntry) (step : Int), e.state = .follow → 1 ≤ e.den →
    let x := e.compute step
    let feed := x.v + (x.offset - e.offset) + (e.corr - e.corrUsed)
    x.v * (e.den : Int) + x.rem = step * e.num + e.rem ∧ 0 ≤ x.rem ∧ x.rem < (e.den : Int) ∧
    x.base = e.base + wrap32 x.v ∧ x.setpoint = x.base + wrap32 x.offset + wrap32 x.corr ∧ x.corrUsed = e.corr ∧
    x.feed = clamp (-8388608) 8388607 feed ∧
    x.flags = { e.flags with sat := e.flags.sat || !(decide (-8388608 ≤ feed) && decide (feed ≤ 8388607)) } ∧
    x = { e with base := x.base, rem := x.rem, offset := x.offset, corrUsed := x.corrUsed, v := x.v, setpoint := x.setpoint,
                 feed := x.feed, flags := x.flags }) ∧
  ∀ (steps : List Int) (e : AxisEntry), e.state = .follow → 1 ≤ e.den →
    let run := steps.foldl (fun (a : AxisEntry × Int) step => (a.1.compute step, a.2 + (a.1.compute step).v)) (e, 0)
    (e.den : Int) * run.2 + run.1.rem = e.num * steps.sum + e.rem ∧ run.1.state = .follow

/-- R29: the slew of the applied offset, in every state but OFF. -/
def Obligations.OffsetSlewRule : Prop :=
  ∀ (e : AxisEntry) (step : Int), e.state ≠ .off →
    (e.compute step).target = e.target ∧
    ((e.target - e.offset).natAbs ≤ e.slew → (e.compute step).offset = e.target) ∧
    (e.slew < (e.target - e.offset).natAbs →
      (e.compute step).offset = if e.offset < e.target then e.offset + e.slew else e.offset - e.slew) ∧
    ((e.compute step).offset - e.offset).natAbs ≤ e.slew

/-- R31 to R34: the computation of an axis in STOPPING, STOPPED, DISABLED and OFF. That the feed-forward in DISABLED is 0, and Ca takes C, at
the first computation after a C was written in OFF too is the model's choice (assumption 75). -/
def Obligations.RestingStatesRule : Prop :=
  ∀ (e : AxisEntry) (step : Int),
    let x := e.compute step
    let feed := x.v + (x.offset - e.offset) + (e.corr - e.corrUsed)
    (e.state = .stopping →
      x.v = (if e.v.natAbs ≤ e.decel then 0 else if 0 < e.v then e.v - e.decel else e.v + e.decel) ∧
      x.base = e.base + wrap32 x.v ∧ x.rem = e.rem ∧ x.state = (if x.v = 0 then .stopped else .stopping)) ∧
    (e.state = .stopped → x.v = 0 ∧ x.base = e.base ∧ x.rem = e.rem ∧ x.state = .stopped) ∧
    (e.state = .stopping ∨ e.state = .stopped →
      x.setpoint = x.base + wrap32 x.offset + wrap32 e.corr ∧ x.corrUsed = e.corr ∧ x.feed = clamp (-8388608) 8388607 feed ∧
      x.flags = { e.flags with sat := e.flags.sat || !(decide (-8388608 ≤ feed) && decide (feed ≤ 8388607)) }) ∧
    (e.state = .disabled → x.state = .disabled ∧ x.rem = 0 ∧ x.v = 0 ∧ x.feed = 0 ∧ x.flags = e.flags ∧ x.corrUsed = e.corr ∧
      (∀ a, e.lastActual = some a → x.base = a - wrap32 x.offset - wrap32 e.corr ∧ x.setpoint = a) ∧
      (e.lastActual = none → x.base = e.base ∧ x.setpoint = e.base + wrap32 x.offset + wrap32 e.corr)) ∧
    (e.state = .off → x = e ∧ ∀ i, x.handed i = none) ∧
    x.corr = e.corr ∧ x.mask = e.mask ∧ x.lastActual = e.lastActual ∧ x.miss = e.miss ∧ x.group = e.group ∧ x.groupInUse = e.groupInUse ∧
    x.offs = e.offs ∧ x.disables = e.disables ∧
    (∀ i, e.state ≠ .off → ∃ h, x.handed i = some h ∧ h.axis = i ∧ h.enabled = decide (e.state ≠ .disabled) ∧
      h.stop = decide (e.state = .stopping ∨ e.state = .stopped) ∧ h.setpoint = x.setpoint ∧ h.feed = x.feed ∧ h.offs = e.offs ∧
      h.disables = e.disables)

/-- R43, R44: a correction frame consumed by this node, addressed to it or to all nodes. -/
def Obligations.CorrectionFrameRule : Prop :=
  ∀ (s : State) (dt : Nat) (p : PortId) (bytes : List Byte) (f : Frame),
    Arrives s p bytes f → Consumed s f → f.kind = .correction →
    Completes (.frameArrival dt p bytes) s fun t =>
      CorrectionTaken s t (fieldAt f.data 0 1) (intAt f.data 1 4) ∧
      KeepsBesides [.axis] s t p f

/-! ### The drive link (chapter 3) -/

/-- R26, R35, R49, R52: the pending output instant arrives; a poll still in progress is cut off with a miss for each axis it had left. An
axis that is in OFF, or has entered OFF since its values were handed over, is neither polled nor missed.
That the axis being polled counts a miss even then is the model's reading (assumption 30); that the first record starts at the instant
itself, a byte then on the line or not, is its choice (assumption 78), and so is that it arrives at its instant, or at once where that has
passed (assumption 7). -/
def Obligations.OutputInstantRule : Prop :=
  ∀ (s : State) (x : PendingPoll), s.drive.next = some x → Completes .outputInstant s fun t =>
    let polled (h : Handed) : Bool :=
      (s.axis.entries.getD h.axis {}).state != .off && (s.axis.entries.getD h.axis {}).offs == h.offs
    t.now = max s.now x.instant ∧ t.drive.next = none ∧ PollsOn t x.tag (x.values.filter polled) ∧ t.drive.status = s.drive.status ∧
    (s.drive.poll = none → t.axis = s.axis ∧ t.drive.counters = s.drive.counters) ∧
    (∀ p, s.drive.poll = some p →
      let missing := p.current.axis :: ((p.rest.filter polled).map fun h => h.axis)
      t.axis.entries = missing.foldl (fun es a => es.modify a AxisEntry.missed) s.axis.entries ∧
      t.axis.counters = s.axis.counters ∧
      t.drive.counters = { s.drive.counters with
        abandoned := bumpBy s.drive.counters.abandoned missing.length
        pollOverrun := true
        driveSilent := t.drive.counters.driveSilent } ∧
      (s.drive.counters.driveSilent = true → t.drive.counters.driveSilent = true)) ∧
    KeepsAllBut [.axis, .drive] s t

/-- R50, R51, R55: the last byte of a setpoint record opens the answer window for 10 µs; a window that closes empty is a miss for no
answer, and the next axis is polled. A miss raises the miss count up to 3, and one that leaves it at 3 sets SILENT. That the record ends and
the window closes at their instants, or at once where those have passed, is the model's choice (assumption 7). -/
def Obligations.AnswerWindowRule : Prop :=
  (∀ e : AxisEntry, e.miss ≤ 3 →
    e.missed.miss = (if e.miss = 3 then 3 else e.miss + 1) ∧ e.missed.miss ≤ 3 ∧
    (e.missed.flags.silent = true ↔ e.flags.silent = true ∨ 2 ≤ e.miss) ∧
    e.missed = { e with miss := e.missed.miss, flags := { e.flags with silent := e.missed.flags.silent } }) ∧
  ∀ (s : State) (p : Poll), s.drive.poll = some p →
    (∀ e, p.phase = .sending e → Completes .setpointRecordSent s fun t =>
      t.now = max s.now e ∧ t.drive = { s.drive with poll := some { p with phase := .window (t.now + 10000) } } ∧
      KeepsAllBut [.drive] s t) ∧
    (∀ c, p.phase = .window c → Completes .answerWindowClose s fun t =>
      t.now = max s.now c ∧ PollsOn t p.tag p.rest ∧ t.drive.next = s.drive.next ∧ t.drive.status = s.drive.status ∧
      t.drive.counters = { s.drive.counters with
        noAnswer := bump s.drive.counters.noAnswer
        driveSilent := s.drive.counters.driveSilent || ((s.axis.entries.getD p.current.axis {}).miss == 2) } ∧
      t.axis = { s.axis with entries := s.axis.entries.modify p.current.axis AxisEntry.missed } ∧
      KeepsAllBut [.axis, .drive] s t)

/-- R47, R51, R53, R54, R56, R57: a record on the answer pair. The record of an axis that has entered OFF since its values were handed
over is discarded, and that of an axis disabled since then, engaged again or not, gets no check of its following error. That eight bytes
completed in a window are its answer, and no stray, also where the first of them came before it opened, is the model's choice
(assumption 77). -/
def Obligations.ActualRecordRule : Prop :=
  ∀ (s : State) (dt : Nat) (bytes : List Byte), Completes (.actualRecord dt bytes) s fun t =>
    KeepsAllBut [.axis, .drive] s t ∧
    ((∀ p c, s.drive.poll = some p → p.phase ≠ .window c) → t.axis = s.axis ∧
      t.drive = { s.drive with counters := { s.drive.counters with strayAnswer := bump s.drive.counters.strayAnswer } }) ∧
    (∀ p c e, s.drive.poll = some p → p.phase = .window c → bytes.length = 8 → s.axis.entries.get? p.current.axis = some e →
      let a := readActual bytes
      let k := s.drive.counters
      let missed (d : DriveCounters) : Prop :=
        t.axis = { s.axis with entries := s.axis.entries.set p.current.axis e.missed } ∧ t.drive.status = s.drive.status ∧
        t.drive.counters = { d with driveSilent := d.driveSilent || e.miss == 2 }
      PollsOn t p.tag p.rest ∧ t.drive.next = s.drive.next ∧
      if e.state = .off ∨ e.offs ≠ p.current.offs then t.axis = s.axis ∧ t.drive.status = s.drive.status ∧ t.drive.counters = k
      else if crc16Good bytes = false then missed { k with badCrc := bump k.badCrc }
      else if a.address ≠ p.current.axis then missed { k with wrongAddress := bump k.wrongAddress }
      else if a.tag ≠ p.tag then missed { k with wrongTag := bump k.wrongTag }
      else
        let lag := (p.current.setpoint - a.position).toInt.natAbs
        let ferr := p.current.enabled && decide (e.state = .follow ∨ e.state = .stopping ∨ e.state = .stopped)
          && decide (e.disables = p.current.disables) && decide (e.ferrLimit < lag)
        t.axis = { s.axis with entries := s.axis.entries.set p.current.axis { e with
          miss := 0
          lastActual := some a.position
          flags := { e.flags with dfault := e.flags.dfault || a.fault, ferr := e.flags.ferr || ferr } } } ∧
        t.drive.status = s.drive.status.set p.current.axis (some ⟨a.ready, a.fault⟩) ∧
        t.drive.counters = { k with
          notReady := if p.current.enabled = true ∧ a.ready = false then bump k.notReady else k.notReady
          driveFault := if a.fault = true then bump k.driveFault else k.driveFault
          followingError := if ferr = true then bump k.followingError else k.followingError })

/-! ### The trip unit (chapters 4 and 5) -/

/-- R60: the level of a trip input pin, and its hold timer, which acts at its expiry, or at once where that has passed: the model's choice
(assumption 7). -/
def Obligations.TripInputRule : Prop :=
  (∀ (s : State) (dt : Nat) (pin : Fin 8) (high : Bool), s.trip.pins.getLsbD pin ≠ high →
    Completes (.tripInputChange dt pin high) s fun t =>
      (∀ i, i < 8 → t.trip.pins.getLsbD i = if i = pin.val then high else s.trip.pins.getLsbD i) ∧
      t.trip.filtered = s.trip.filtered ∧ KeepsEntriesBut pin s.trip.hold t.trip.hold ∧
      (if (!high) ≠ s.trip.filtered.getLsbD pin then
        t.trip.hold.get? pin = some (some (s.now + dt + 20000)) ∧ t.trip.counters = s.trip.counters
      else t.trip.hold.get? pin = some none ∧
        t.trip.counters = (if (s.trip.hold.getD pin none).isSome = true
          then { s.trip.counters with glitch := bump s.trip.counters.glitch } else s.trip.counters)) ∧
      t.trip.still = { s.trip.still with pins := t.trip.pins, hold := t.trip.hold, counters := t.trip.counters } ∧
      KeepsAllBut [.trip] s t) ∧
  ∀ (s : State) (pin : Fin 8) (x : Time), s.trip.hold.get? pin = some (some x) → Completes (.tripInputHoldExpiry pin) s fun t =>
    t.now = max s.now x ∧ t.trip.hold.get? pin = some none ∧ KeepsEntriesBut pin s.trip.hold t.trip.hold ∧
    (∀ i, i < 8 → t.trip.filtered.getLsbD i = if i = pin.val then !(s.trip.pins.getLsbD i) else s.trip.filtered.getLsbD i) ∧
    t.trip.still = { s.trip.still with filtered := t.trip.filtered, hold := t.trip.hold } ∧ KeepsAllBut [.trip] s t

/-- R65, R66: which channels an evaluation raises. A channel is raised exactly when some rule that targets it is true: a run of
used terms, at the beginning or behind a term with its last mark set, up to the first such term, the values combined in turn. -/
def Obligations.RulesRaiseTheirTargets : Prop :=
  ∀ (p : Program) (sources : BitVec 64) (c : Nat), c < 32 →
    ((p.raised sources).getLsbD c = true ↔
      ∃ (pre body post : List Term) (t : Term), p.used = pre ++ (body ++ [t]) ++ post ∧
        (pre = [] ∨ ∃ q x, pre = q ++ [x] ∧ x.last = true) ∧ (∀ x ∈ body, x.last = false) ∧ t.last = true ∧ t.target = some c ∧
        (body ++ [t]).foldl (fun acc x => TermOp.combine x.op acc (sources.getLsbD x.source != x.negate)) false = true)

/-- R66, R67, R72 to R74: TRIP_EVALUATION takes the oldest source change that waits off the list, and evaluates; the changes that the
evaluation makes join the list behind those left.
That another of the waiting changes may be picked is the model's choice (assumption 8), and so is that a change undone before it is taken
is taken all the same, with the values it carried (assumption 79). -/
def Obligations.EvaluationRule : Prop :=
  ∀ (s : State) (dt : Nat) (c : SourceChange) (rest : List SourceChange), s.trip.changes = c :: rest →
    Completes (.tripEvaluation dt 0) s fun t =>
      (∀ k, t.trip.sources.getLsbD k = if c.mask.getLsbD k then c.value.getLsbD k else s.trip.sources.getLsbD k) ∧
      Evaluated { s.trip with sources := t.trip.sources } s t ∧
      (∃ more, t.trip.changes = rest ++ more) ∧
      t.trip.active = s.trip.active ∧ t.trip.staging = s.trip.staging ∧ t.trip.held = s.trip.held ∧ t.trip.blank = s.trip.blank ∧
      t.trip.total = s.trip.total ∧ t.trip.upstream = s.trip.upstream ∧ t.trip.actions = s.trip.actions ∧
      KeepsAllBut [.axis, .trip, .portA, .portB] s t

/-- R68, R69: a commit is refused at the first used term, in ascending order, that fails a check; a program that passes them is refused
exactly when its channel dependency graph has a cycle, at the lowest of the terms whose edges lie on one. Term `i` has the edge from `c` to
`d` when it reads source 32 + c and the first term from it on whose last mark is set, which ends its rule, targets `d`. -/
def Obligations.CommitChecks : Prop :=
  (∀ (p : Program) (i : Nat),
    let fails (j : Nat) : Prop := ∃ t : Term, p.used[j]? = some t ∧
      (63 < t.source ∨
        ((j = 0 ∨ ∃ x : Term, p.used[j - 1]? = some x ∧ x.last = true) ∧ t.op ≠ .load) ∨
        (j ≠ 0 ∧ (∃ x : Term, p.used[j - 1]? = some x ∧ x.last = false) ∧ t.op = .load) ∨
        (t.last = true ∧ t.target = none) ∨ (j + 1 = p.used.length ∧ t.last = false))
    (firstFailing p.used true 0 = some i ↔ fails i ∧ ∀ j, j < i → ¬fails j) ∧
    (firstFailing p.used true 0 = none ↔ ∀ j, ¬fails j)) ∧
  ∀ p : Program, firstFailing p.used true 0 = none → (∀ t ∈ p.used, ∀ c, t.target = some c → c < 32) →
    let makes (i c d : Nat) : Prop := c < 32 ∧ (∃ x : Term, p.used[i]? = some x ∧ x.source = 32 + c) ∧
      ∃ (j : Nat) (y : Term), i ≤ j ∧ p.used[j]? = some y ∧ y.last = true ∧ y.target = some d ∧
        ∀ (k : Nat) (z : Term), i ≤ k → k < j → p.used[k]? = some z → z.last = false
    let edge (c d : Nat) : Prop := ∃ i, makes i c d
    (p.refusedAt = none ↔ ∀ c, ¬Relation.TransGen edge c c) ∧
    (∀ i, p.refusedAt = some i →
      (∃ c d, makes i c d ∧ Relation.ReflTransGen edge d c) ∧
      ∀ j c d, makes j c d → Relation.ReflTransGen edge d c → i ≤ j)

/-- R68 to R70: the execution of a TRIP COMMIT. -/
def Obligations.CommitRule : Prop :=
  ∀ (s : State) (dt : Nat) (r : Request) (rest : List Request), Due s r rest .tripCommit →
    Completes (.tripCommit dt) s fun t =>
      TakenFromQueue s t rest ∧ t.trip.staging = s.trip.staging ∧ t.trip.sources = s.trip.sources ∧
      (∀ i, s.trip.staging.refusedAt = some i →
        Answered s t s.forward.management r .malformed (.bytes [BitVec.ofNat 8 i]) false ∧
        t.trip.still = { s.trip.still with
          counters := { s.trip.counters with commitRefused := bump s.trip.counters.commitRefused } } ∧
        KeepsAllBut [.trip, .agent, .console, .forward] s t) ∧
      (s.trip.staging.refusedAt = none →
        Answered s t s.forward.management r .ok noData false ∧
        t.trip.active.length = s.trip.staging.length ∧
        (∀ i, i < 128 → t.trip.active.terms.get? i =
          if i < s.trip.staging.length then s.trip.staging.terms.get? i
          else some { source := 0, negate := false, op := .load, last := false, target := none }) ∧
        t.trip.counters.commit = bump s.trip.counters.commit ∧
        Evaluated { s.trip with active := t.trip.active } s t ∧
        KeepsAllBut [.axis, .trip, .agent, .console, .forward, .portA, .portB] s t)

/-- R75, R77: the execution of a TRIP RESET. -/
def Obligations.TripResetRule : Prop :=
  ∀ (s : State) (dt : Nat) (r : Request) (rest : List Request), Due s r rest .tripReset → 4 ≤ r.data.length →
    Completes (.tripReset dt) s fun t =>
      let mask := r.channelMask
      TakenFromQueue s t rest ∧
      (∀ c, c < 32 → mask.getLsbD c = true → t.trip.blank.get? c = some 2 ∧ t.trip.held.get? c = some none) ∧
      (∀ c, c < 32 → mask.getLsbD c = false →
        t.trip.blank.get? c = s.trip.blank.get? c ∧ t.trip.held.get? c = s.trip.held.get? c) ∧
      (∀ k, k < 32 → t.trip.sources.getLsbD k = s.trip.sources.getLsbD k) ∧
      (∀ c, c < 32 → (t.trip.sources.getLsbD (32 + c) = true ↔
        (s.trip.own.getLsbD c = true ∧ mask.getLsbD c = false) ∨ (t.trip.held.getD c none).isSome = true ∨
        ((s.trip.total.getLsbD c = true ∨ s.trip.upstream.getLsbD c = true) ∧ t.trip.blank.getD c 0 = 0))) ∧
      Evaluated { s.trip with sources := t.trip.sources, own := s.trip.own &&& ~~~mask } s t ∧
      t.trip.counters.tripReset = bump s.trip.counters.tripReset ∧ t.trip.dedupe = s.trip.dedupe ∧
      t.trip.active = s.trip.active ∧ t.trip.staging = s.trip.staging ∧
      (if t.trip.own &&& mask = 0 then Answered s t s.forward.management r .ok noData false
       else Answered s t s.forward.management r .cause (.bytes (beBytes 4 (t.trip.own &&& mask).toNat)) false) ∧
      KeepsAllBut [.axis, .trip, .agent, .console, .forward, .portA, .portB] s t

/-- R71, the law of the device on the latch: a channel enters the own-raised word when an evaluation finds a rule targeting it true;
it leaves it only through a trip reset that marks it and whose evaluation finds no rule for it true, or through a reset of the part (or
while RESET is held). -/
def Obligations.OwnRaisedWordIsALatch : Prop :=
  (∀ (u : TripUnit) (addressed : Bool), (u.evaluated addressed).own = u.own ||| u.active.raised u.sources) ∧
  (∀ (s t : State) (dt : Nat) (straps : Option (BitVec 6)), exec (.powerOnReset dt straps) s = .next t → t.trip.own = 0) ∧
  (∀ (s t : State) (straps : BitVec 6), s.resetHeld = false → s.agent.resetWait ≠ none → exec (.nodeResetBegin straps) s = .next t → t.trip.own = 0) ∧
  ∀ (c : Instr) (s t : State) (ch : Nat), s.resetHeld = false → exec c s = .next t →
    (s.trip.own.getLsbD ch = false → t.trip.own.getLsbD ch = true →
      (t.trip.active.raised t.trip.sources).getLsbD ch = true ∧
      ((∃ dt pick, c = .tripEvaluation dt pick) ∨ (∃ dt, c = .tripCommit dt) ∨ ∃ dt, c = .tripReset dt)) ∧
    (s.trip.own.getLsbD ch = true → t.trip.own.getLsbD ch = false →
      (∃ dt r rest, c = .tripReset dt ∧ s.agent.queue = r :: rest ∧ r.kindOf = some .tripReset ∧
        r.channelMask.getLsbD ch = true ∧ (t.trip.active.raised t.trip.sources).getLsbD ch = false) ∨
      (∃ dt straps, c = .powerOnReset dt straps) ∨ ∃ straps, c = .nodeResetBegin straps)

/-- R80 to R83, R86: a trip frame from another node, consumed.
That origins of 64 and more are bad origins is the model's choice (assumption 12). -/
def Obligations.TripFrameAcceptance : Prop :=
  ∀ (s : State) (dt : Nat) (p : PortId) (bytes : List Byte) (f : Frame),
    Arrives s p bytes f → s.hasAddress = true → f.origin ≠ s.addressByte → f.kind = .trip → f.dest = 0 →
    Completes (.frameArrival dt p bytes) s fun t =>
      let seq := byteAt f.data 0
      let word : Marks := BitVec.ofNat 32 (fieldAt f.data 1 4)
      let k := s.trip.counters
      let accepted : Prop :=
        t.trip.dedupe.get? (f.origin.toNat - 1) = some (some seq) ∧
        KeepsEntriesBut (f.origin.toNat - 1) s.trip.dedupe t.trip.dedupe ∧
        (∀ c, c < 32 → t.trip.held.get? c = if word.getLsbD c then some (some 0) else s.trip.held.get? c) ∧
        t.trip.counters.frameAccepted = bump k.frameAccepted ∧ t.trip.counters.duplicate = k.duplicate ∧
        t.trip.counters.badOrigin = k.badOrigin
      (if f.origin = 0 ∨ 63 ≤ f.origin.toNat then
        t.trip.dedupe = s.trip.dedupe ∧ t.trip.held = s.trip.held ∧ t.trip.counters.badOrigin = bump k.badOrigin
      else
        (s.trip.dedupe.getD (f.origin.toNat - 1) none = none → accepted) ∧
        (∀ x, s.trip.dedupe.getD (f.origin.toNat - 1) none = some x → newer seq x = true → accepted) ∧
        (∀ x, s.trip.dedupe.getD (f.origin.toNat - 1) none = some x → newer seq x = false →
          t.trip.dedupe = s.trip.dedupe ∧ t.trip.held = s.trip.held ∧ t.trip.counters.duplicate = bump k.duplicate)) ∧
      t.trip.view = t.trip.formed ∧ t.trip.own = s.trip.own ∧ t.trip.seq = s.trip.seq ∧ t.trip.blank = s.trip.blank ∧
      t.trip.sources = s.trip.sources ∧ KeepsAllBut [.axis, .trip, .portA, .portB] s t

/-- R84, R85: the trip unit's part of a cycle event, channel by channel, and its counters; a substitute cycle only runs the blanking timers
down, and a late copy takes the totals and confirms held bits without ageing any.
That R93's third bullet tells of totals taken while the channel is blanked, so that the total of the event at which R85 ends the blanking
counts, is the model's reading (assumption 49). -/
def Obligations.TripTotalsRule : Prop :=
  (∀ (u : TripUnit) (total up : Marks),
    let confirmed (limit c : Nat) : Bool := (u.held.getD c none).isSome && total.getLsbD c && decide (u.blank.getD c 0 ≤ limit)
    let k := u.counters
    let x := u.cycleEvent (some (total, up))
    let y := u.takeTotals total up
    u.cycleEvent none = { u with blank := (u.cycleEvent none).blank } ∧
    x = { u with
      blank := x.blank
      total := total
      upstream := up
      held := x.held
      counters := { k with
        heldConfirmed := bumpBy k.heldConfirmed (countBelow 32 (confirmed 1))
        unconfirmed := bumpBy k.unconfirmed
          (countBelow 32 fun c => (u.held.getD c none).any (fun a => decide (2 ≤ a)) && !confirmed 1 c) } } ∧
    y = { u with
      total := total
      upstream := up
      held := y.held
      counters := { k with heldConfirmed := bumpBy k.heldConfirmed (countBelow 32 (confirmed 0)) } } ∧
    ∀ c, c < 32 → y.held.get? c = some (if confirmed 0 c = true then none else u.held.getD c none)) ∧
  ∀ (u : TripUnit) (c : Nat), c < 32 →
    (∀ r, (u.cycleEvent r).blank.get? c = some (u.blank.getD c 0 - 1)) ∧
    (u.cycleEvent none).held = u.held ∧ (u.cycleEvent none).total = u.total ∧ (u.cycleEvent none).upstream = u.upstream ∧
    (∀ total up, (u.cycleEvent (some (total, up))).total = total ∧ (u.cycleEvent (some (total, up))).upstream = up ∧
      (u.cycleEvent (some (total, up))).held.get? c = some (match u.held.getD c none with
        | none => none
        | some a =>
          if total.getLsbD c = true ∧ u.blank.getD c 0 ≤ 1 then none else if a < 2 then some (a + 1) else none)) ∧
    (∀ total up, (u.cycleEvent (some (total, up))).own = u.own ∧ (u.cycleEvent (some (total, up))).seq = u.seq ∧
      (u.cycleEvent (some (total, up))).dedupe = u.dedupe ∧ (u.cycleEvent (some (total, up))).sources = u.sources)

/-- R40, R86, R87, R89, R90: a forming of the trip view. The view is what its contributions make; when it changes, the outputs take
their levels and every axis of a group that gains an assignment takes the group's strongest one; and tile 252 carries the view and the own-raised
word, through which, with the action table, the strongest assignment of each group is read. The axes of a group are those in which
it has been in use since a cycle event (R23): the model's choice (assumption 46). That tile 252 has no assignment of its own, so that R89's
reading of it goes through the view, is the model's reading (assumption 61). -/
def Obligations.ViewChangeActs : Prop :=
  ∀ s : State,
    let t := formView s
    (∀ c, c < 32 → (t.trip.view.getLsbD c = true ↔ s.trip.own.getLsbD c = true ∨ (s.trip.held.getD c none).isSome = true ∨
      ((s.trip.total.getLsbD c = true ∨ s.trip.upstream.getLsbD c = true) ∧ s.trip.blank.getD c 0 = 0))) ∧
    (t.trip.view = s.trip.view → t.axis = s.axis ∧ t.trip = s.trip) ∧
    (t.trip.view ≠ s.trip.view →
      (∀ p, p < 4 → (t.trip.outputs.getLsbD p = true ↔
        ∃ c, c < 32 ∧ t.trip.view.getLsbD c = true ∧ (s.trip.actions.getD c {}).pins.getLsbD p = true)) ∧
      (∀ i e, s.axis.entries.get? i = some e → e.groupInUse < 4 → ∃ x, t.axis.entries.get? i = some x ∧
        let gained : Prop := ∃ c, c < 32 ∧ assignsStop s.trip.actions t.trip.view c e.groupInUse = true ∧
          assignsStop s.trip.actions s.trip.view c e.groupInUse = false
        (gained → AfterReport s.trip.actions t.trip.view e x) ∧ (¬gained → x = e))) ∧
    (∀ x, t.console.tiles.get? 252 = some x → x.content = .trips t.trip.view s.trip.own ∧
      ∀ g, g < 4 → ∃ k, x.content.strongest s.trip.actions g = some k ∧
        let assigned (kind : ActionKind) : Prop := ∃ c, c < 32 ∧ t.trip.view.getLsbD c = true ∧
          (s.trip.actions.getD c {}).groups.getLsbD g = true ∧ (s.trip.actions.getD c {}).kind = kind
        (k = .torqueOff ↔ assigned .torqueOff) ∧ (k = .axisStop ↔ assigned .axisStop ∧ ¬assigned .torqueOff) ∧
        (k = .syncStop ↔ assigned .syncStop ∧ ¬assigned .axisStop ∧ ¬assigned .torqueOff)) ∧
    t.axis.counters = s.axis.counters ∧ KeepsAllBut [.axis, .trip] s t

/-- R88 to R90: a WRITE of an ACTION item. A kind outside the four, or SYNC_STOP without MASTER_STOP, is refused. The axes of a group are
those in which it has been in use since a cycle event (R23): the model's choice (assumption 46), and so is that a write which names no
field is answered OK (assumption 71). -/
def Obligations.ActionWriteRule : Prop :=
  ∀ (s : State) (dt : Nat) (w : ActionWrite) (r : Request) (rest : List Request) (a : Action),
    Due s r rest .write → Names r .action → s.trip.actions.get? r.entry = some a →
    Completes (.actionWrite dt (some w)) s fun t =>
      let kind := (w.kind.getD (some a.kind)).getD a.kind
      let stop := w.masterStop.getD a.masterStop
      if w.kind = some none ∨ (kind = .syncStop ∧ stop = false) then Refused s t r rest .range
      else
        TakenFromQueue s t rest ∧ Answered s t s.forward.management r .ok noData false ∧
        t.trip.actions.get? r.entry =
          some { kind := kind, groups := w.groups.getD a.groups, pins := w.pins.getD a.pins, masterStop := stop } ∧
        KeepsEntriesBut r.entry s.trip.actions t.trip.actions ∧ t.trip.view = s.trip.view ∧
        (∀ p, p < 4 → (t.trip.outputs.getLsbD p = true ↔
          ∃ c, c < 32 ∧ s.trip.view.getLsbD c = true ∧ (t.trip.actions.getD c {}).pins.getLsbD p = true)) ∧
        (∀ i e, s.axis.entries.get? i = some e → e.groupInUse < 4 → ∃ x, t.axis.entries.get? i = some x ∧
          let gained : Prop := assignsStop t.trip.actions s.trip.view r.entry e.groupInUse = true ∧
            (assignsStop s.trip.actions s.trip.view r.entry e.groupInUse = false ∨ (a.kind = .axisStop ∧ kind = .torqueOff))
          (gained → AfterReport t.trip.actions s.trip.view e x) ∧ (¬gained → x = e)) ∧
        t.axis.counters = s.axis.counters ∧ KeepsAllBut [.axis, .trip, .agent, .console, .forward] s t

/-! ### Images (chapters 6 to 8) -/

/-- Line memory: a byte reads what was last stored at its address, every other byte reads as before, and every step keeps the canonical
form. That a store ends at byte 262,144, and that a byte at or beyond it reads 0, is the model's reading (assumption 31). -/
def Obligations.LineMemoryReadsWhatWasStored : Prop :=
  StepKeeps MemoryLaw ∧
  ∀ (m : Memory) (a : Nat) (data : List Byte), m.wf →
    (m.write a data).wf ∧
    ∀ x, (m.write a data).read x = if a ≤ x ∧ x < a + data.length ∧ x < 262144 then data.getD (x - a) 0 else m.read x

/-- R103 to R106, R110: the next scheduled trigger of a context is pulsed; a line-valid input rises, or falls while no capture takes its
pixels; and the part of one context in a cycle event: the triggers left over are pulsed there, those whose instant lies later counted late,
and the first 32 grid points of a positive step are scheduled, each at its fraction of the working period rounded down to 20 ns. That the limit of a capture is fixed at its pulse, from the working period then, is the model's reading (assumption 21); that the
trigger output is stated as the instant of its last pulse is its choice (assumption 48), and so are that a rise of a line whose capture was
abandoned before it is counted (assumption 50) and that a pulse happens at its instant, or at once where that has passed (assumption 7). -/
def Obligations.TriggerAndLineValidRule : Prop :=
  (∀ (u : ImageUnit) (i : Nat) (now period : Time) (before : ExtPos) (step : Int), i < 8 → step ≤ 4194304 →
    let c := u.ctx i
    let x := u.triggerEvent i now period before step
    let left := c.work.triggers
    let full : Prop := c.work.held = c.record.capacity
    let k := c.counters
    let y := (x.ctx i).counters
    let onGrid (n : Nat) : Bool := decide (c.record.origin ≤ extPhase (before + BitVec.ofNat 40 n)) &&
      (extPhase (before + BitVec.ofNat 40 n) - c.record.origin) % c.record.pitch == 0
    let passed := ((List.range step.toNat).map fun n => n + 1).filter onGrid
    (c.record.mode ≠ .source → x = u) ∧
    (c.record.mode = .source → 1 ≤ c.record.pitch →
      x = { u with
        contexts := u.contexts.set i { c with
          work := { c.work with
            nextLine := c.work.nextLine + BitVec.ofNat 16 left.length
            capture := (x.ctx i).work.capture
            triggers := (passed.take 32).map fun n => ⟨before + BitVec.ofNat 40 n, now + n * period / step.toNat / 20 * 20⟩ }
          counters := { k with
            triggerOverrun := if step ≤ 0 then k.triggerOverrun else bumpBy k.triggerOverrun (passed.length - 32)
            triggerLate := bump^[(left.filter fun z => decide (now < z.instant)).length] k.triggerLate
            captureOverrun := y.captureOverrun
            triggerBusy := y.triggerBusy } }
        memory := x.memory
        trigger := x.trigger } ∧
      (full → y.captureOverrun = bump^[left.length] k.captureOverrun ∧ y.triggerBusy = k.triggerBusy) ∧
      (¬full → y.captureOverrun = k.captureOverrun ∧
        y.triggerBusy = bump^[if c.work.capture = none then left.length - 1 else left.length] k.triggerBusy) ∧
      (∀ z rest, left = z :: rest → ¬full → c.work.capture = none →
        (x.ctx i).work.capture = some ⟨c.work.nextLine, z.point, now + period, false⟩ ∧
        x.memory = u.memory.write (c.record.slotAddress c.work.write) (beBytes 2 c.work.nextLine.toNat ++ beBytes 5 z.point.toNat) ∧
        x.trigger = u.trigger.set i (some now)) ∧
      (left = [] ∨ full ∨ c.work.capture ≠ none →
        (x.ctx i).work.capture = c.work.capture ∧ x.memory = u.memory ∧ x.trigger = u.trigger))) ∧
  (∀ (s : State) (i : Fin 2) (x : Trigger) (rest : List Trigger), (s.image.ctx i).work.triggers = x :: rest →
    Completes (.triggerPulse i) s fun t =>
      let c := (s.image.ctx i).still
      let d := (t.image.ctx i).still
      let full : Prop := (s.image.ctx i).work.held = c.record.capacity
      t.now = max s.now x.instant ∧ d.record = c.record ∧
      (full ∨ c.work.capture ≠ none → d.work = { c.work with triggers := rest, nextLine := c.work.nextLine + 1 } ∧
        t.image.memory = s.image.memory ∧ t.image.trigger = s.image.trigger) ∧
      (¬full → c.work.capture = none →
        d.work = { c.work with
          triggers := rest
          nextLine := c.work.nextLine + 1
          capture := some ⟨c.work.nextLine, x.point, t.now + 1000 * s.cycle.workingPeriod.us, false⟩ } ∧
        t.image.memory = s.image.memory.write (c.record.slotAddress c.work.write)
          (beBytes 2 c.work.nextLine.toNat ++ beBytes 5 x.point.toNat) ∧
        t.image.trigger.get? i = some (some t.now) ∧ KeepsEntriesBut i s.image.trigger t.image.trigger) ∧
      (full → d.counters = { c.counters with captureOverrun := bump c.counters.captureOverrun }) ∧
      (¬full → c.work.capture ≠ none → d.counters = { c.counters with triggerBusy := bump c.counters.triggerBusy }) ∧
      (¬full → c.work.capture = none → d.counters = c.counters) ∧
      KeepsEntriesBut i s.image.still.contexts t.image.still.contexts ∧ KeepsAllBut [.image] s t) ∧
  (∀ (s : State) (dt : Nat) (i : Fin 2), s.image.lineValid.getLsbD i = false → Completes (.lineValidRise dt i) s fun t =>
    let c := (s.image.ctx i).still
    let d := (t.image.ctx i).still
    let used : Prop := s.image.direction = .capture ∧ c.record.mode = .source ∧ (i.val = 0 ∨ s.image.tap = .single)
    (∀ j, j < 2 → t.image.lineValid.getLsbD j = (decide (j = i.val) || s.image.lineValid.getLsbD j)) ∧
    (¬used → d = c) ∧
    (used → c.work.capture = none →
      d = { c with counters := { c.counters with unrequestedLine := bump c.counters.unrequestedLine } }) ∧
    (used → ∀ k, c.work.capture = some k → d = { c with work := { c.work with capture := some { k with intake := true } } }) ∧
    KeepsEntriesBut i s.image.still.contexts t.image.still.contexts ∧ t.image.memory = s.image.memory ∧
    t.image.trigger = s.image.trigger ∧ KeepsAllBut [.image] s t) ∧
  ∀ (s : State) (dt : Nat) (i : Fin 2), (∀ k, (s.image.ctx i).work.capture = some k → k.intake = false) →
    Completes (.lineValidFall dt i) s fun t =>
      (∀ j, j < 2 → t.image.lineValid.getLsbD j = (decide (j ≠ i.val) && s.image.lineValid.getLsbD j)) ∧
      t.image.still = { s.image.still with lineValid := t.image.lineValid } ∧ KeepsAllBut [.image] s t

/-- R107 to R109, R111, R112: which pixel of which tap fills a position of the line, and how many positions lie before the first the camera
did not fill; the stored bytes of a line; the fields of a segment frame, how many segments a line takes, and that a SOURCE with a held line
and no segment waiting places its next one (that one waits behind every command, `RegionLaw` says). That the bytes beyond the first gap are
zeros in INTERLEAVED too is the model's reading (assumption 51); that bits 7 to 2 of a segment's byte 7 are 0 is its choice
(assumption 83). -/
def Obligations.PixelsAndSegments : Prop :=
  (∀ (size : Nat) (order : ByteOrder) (pixels : List (Option (BitVec 16))) (q : Nat), size = 1 ∨ size = 2 → q < pixels.length →
    let stored := capturedBytes size order pixels
    let n := (filledPixels pixels).length
    stored.length = size * pixels.length ∧
    (q < n → ∃ v : BitVec 16, pixels[q]? = some (some v) ∧
      (size = 1 → stored[q]? = some (v.setWidth 8)) ∧
      (size = 2 → order = .normal → stored[2 * q]? = some (v.setWidth 8) ∧ stored[2 * q + 1]? = some ((v >>> 8).setWidth 8)) ∧
      (size = 2 → order = .swapped → stored[2 * q]? = some ((v >>> 8).setWidth 8) ∧ stored[2 * q + 1]? = some (v.setWidth 8))) ∧
    (n < pixels.length → pixels[n]? = some none) ∧
    (n ≤ q → stored[size * q]? = some 0 ∧ stored[size * q + size - 1]? = some 0)) ∧
  (∀ (u : ImageUnit) (i : Nat),
    let c := u.ctx i
    let r := c.record
    let slot := r.slotAddress c.work.read
    let header := u.memory.bytes slot 16
    let valid := fieldAt header 8 2
    let k := c.work.segmentsDone
    let last : Prop := if valid = 0 then k = 0 else k * r.segment < valid ∧ valid ≤ (k + 1) * r.segment
    1 ≤ r.segment →
    (∃ marks : Byte, (last → marks = if k = 0 then 3 else 2) ∧ (¬last → marks = if k = 0 then 1 else 0) ∧
      u.segmentPayload i = [BitVec.ofNat 8 r.destCtx, BitVec.ofNat 8 i] ++ header.take 2 ++ [BitVec.ofNat 8 k] ++
        beBytes 2 (k * r.segment) ++ [marks] ++ (if k = 0 then header else []) ++
        u.memory.bytes (slot + 16 + k * r.segment) (min r.segment (valid - k * r.segment))) ∧
    (∀ n, segmentCount valid r.segment = n ↔
      (valid = 0 ∧ n = 1) ∨ (0 < valid ∧ valid ≤ n * r.segment ∧ n * r.segment < valid + r.segment))) ∧
  (∀ (s : State) (i : Nat),
    let c := s.image.ctx i
    let e : ClassEntry :=
      ⟨Frame.own s.addressByte .segment (BitVec.ofNat 8 c.record.destNode) (.bytes (s.image.segmentPayload i)), .segment i⟩
    let due : Prop := c.record.mode = .source ∧ 0 < c.work.held ∧ ∀ x ∈ s.forward.image, x.owner ≠ .segment i
    (due → placeSegment s i = { s with forward := s.forward.place .image e }) ∧ (¬due → placeSegment s i = s)) ∧
  ∀ (i L : Nat) (tap0 tap1 : List (BitVec 16)), L % 2 = 0 →
    (∀ q, q < L → (linePixels .single i L tap0 tap1)[q]? = some ((if i = 0 then tap0 else tap1)[q]?)) ∧
    (∀ j, j < L / 2 →
      (linePixels .interleaved i L tap0 tap1)[2 * j]? = some (tap0[j]?) ∧
      (linePixels .interleaved i L tap0 tap1)[2 * j + 1]? = some (tap1[j]?) ∧
      (linePixels .mirrored i L tap0 tap1)[j]? = some (tap0[j]?) ∧
      (linePixels .mirrored i L tap0 tap1)[L - 1 - j]? = some (tap1[j]?)) ∧
    (∀ mode, (linePixels mode i L tap0 tap1).length = L) ∧
    (filledPixels (linePixels .single i L tap0 tap1)).length = min L (if i = 0 then tap0 else tap1).length ∧
    (filledPixels (linePixels .interleaved i L tap0 tap1)).length =
      (if tap0.length ≤ tap1.length then min L (2 * tap0.length) else min L (2 * tap1.length + 1)) ∧
    (tap0.length < L / 2 → (filledPixels (linePixels .mirrored i L tap0 tap1)).length = tap0.length) ∧
    (L / 2 ≤ tap0.length → tap1.length < L / 2 → (filledPixels (linePixels .mirrored i L tap0 tap1)).length = L / 2) ∧
    (L / 2 ≤ tap0.length → L / 2 ≤ tap1.length → (filledPixels (linePixels .mirrored i L tap0 tap1)).length = L)

/-- R109, R110, R118, R122: a capture completes when line-valid falls, or at its limit; the line is stored, held and counted, and taken by
its mark record if that is enabled (what the search makes of it, MarkSearchRule says): a correction that is not 0 is sent to the record's
node, or handed to the own axis unit. The held count goes up
by 1; where the end of the command hands a segment of this context to a port (R111, R112), the segment is counted, and behind the last
segment of the oldest line that line's slot is freed.
When the pixels of a line reach line memory is the model's choice (assumption 23); that the bytes beyond the first gap are zeros in
INTERLEAVED too is its reading of R109 and R111 (assumption 51); that the limit acts at its instant, or at once where that has passed, is its choice
(assumption 7). -/
def Obligations.CaptureRule : Prop :=
  ∀ (s : State) (dt : Nat) (i : Fin 2) (tap0 tap1 : List (BitVec 16)) (k : Capture) (limit : Bool),
    (s.image.ctx i).work.capture = some k → (limit = false → k.intake = true) →
    Completes (if limit then .captureTimeout i tap0 tap1 else .captureComplete dt i tap0 tap1) s fun t =>
      let c := (s.image.ctx i).still
      let d := (t.image.ctx i).still
      let x := if k.intake then tap0 else []
      let y := if k.intake then tap1 else []
      let pixels := linePixels s.image.tap i c.record.length x y
      let filled := (filledPixels pixels).length
      let a := s.image.ctx i
      let b := t.image.ctx i
      let lastOne : Prop :=
        segmentCount (fieldAt (t.image.oldestHeader a) 8 2) a.record.segment ≤ a.work.segmentsDone + 1
      t.now = (if limit then max s.now k.limit else s.now + dt) ∧
      ((b.work.held = a.work.held + 1 ∧ b.work.read = a.work.read ∧ b.work.segmentsDone = a.work.segmentsDone ∧
          b.counters.segmentsSent = a.counters.segmentsSent) ∨
        (¬lastOne ∧ b.work.held = a.work.held + 1 ∧ b.work.read = a.work.read ∧ b.work.segmentsDone = a.work.segmentsDone + 1 ∧
          b.counters.segmentsSent = bump a.counters.segmentsSent) ∨
        (lastOne ∧ b.work.held = a.work.held ∧ b.work.read = a.record.nextSlot a.work.read ∧ b.work.segmentsDone = 0 ∧
          b.counters.segmentsSent = bump a.counters.segmentsSent)) ∧
      d.record = c.record ∧ d.work = { c.work with capture := none, write := c.record.nextSlot c.work.write } ∧
      d.counters = { c.counters with
        linesCaptured := bump c.counters.linesCaptured
        longLine := if lineIsLong s.image.tap i c.record.length x y then bump c.counters.longLine else c.counters.longLine
        captureTimeout := if limit then bump c.counters.captureTimeout else c.counters.captureTimeout } ∧
      t.image.memory = s.image.memory.write (c.record.slotAddress c.work.write)
        (lineHeader k.line k.tag (if filled = c.record.length then .complete else .short) (filled * c.record.pixel)
          ++ capturedBytes c.record.pixel c.record.order pixels) ∧
      (limit = false → t.image.lineValid.getLsbD i = false) ∧ (limit = true → t.image.lineValid = s.image.lineValid) ∧
      KeepsEntriesBut i s.image.still.contexts t.image.still.contexts ∧
      (∀ m, s.mark.entries.get? i = some m →
        let values := (filledPixels pixels).map fun v => if c.record.pixel = 1 then v.toNat % 256 else v.toNat
        let found := (m.take k.tag values).1
        let sent := (m.take k.tag values).2
        (m.record.enable = false → t.mark.entries.get? i = some m) ∧
        (m.record.enable = false ∨ sent = none ∨ sent = some 0 → Block.axis.same s t ∧ Block.forward.same s t) ∧
        (m.record.enable = true → sent = none ∨ sent = some 0 → t.mark.entries.get? i = some found) ∧
        (m.record.enable = true → ∀ v, sent = some v → v ≠ 0 →
          t.mark.entries.get? i = some { found with
            counters := { found.counters with correctionsSent := bump found.counters.correctionsSent } } ∧
          if s.hasAddress = true ∧ m.record.node = s.address then CorrectionTaken s t m.record.axis v ∧ Block.forward.same s t
          else
            let e : ClassEntry := ⟨Frame.own s.addressByte .correction (BitVec.ofNat 8 m.record.node)
              (.bytes (BitVec.ofNat 8 m.record.axis :: beInt 4 v)), .correction⟩
            Block.axis.same s t ∧ PlacedInManagement s.forward.management e t ∧
              t.forward.still = (s.forward.place .management e).still)) ∧
      KeepsEntriesBut i s.mark.entries t.mark.entries ∧ KeepsAllBut [.image, .mark, .axis, .forward] s t

/-- R98 to R100, R102, R137: the rows that write a STREAM item, and STREAM_RESTART. A context that is turned on, turned off or restarted has
no line held and nothing in progress, and none of its segments waits (`RegionLaw` rules out segments in other class queues, which no run
reaches). Line-valid is released after the word then on the lines; when that word ends while ready holds it, and when the words of the next
delivery begin, are the model's choices (assumptions 36 and 64). Behind an abort the arbiter chooses anew, from the context after the last
served on (R136, R137); a row that aborts no delivery leaves the one in progress and the counters. A STREAM_WRITE that names the mode with a
value outside the named set is refused, with RANGE in OFF and with STATE where the context is on (R98). A write of OFF taken in OFF sets the
other fields it names: the model's choice (assumption 41), and so is that a write which names no field is answered OK (assumption 71). -/
def Obligations.StreamRowsRule : Prop :=
  let chosenAnew (s t : State) : Prop := RegionLaw s →
    (s.image.direction = .capture → t.image.delivery = none) ∧
    (s.image.direction = .deliver →
      (t.image.delivery.map fun x => x.ctx) = { t.image with lastServed := s.image.lastServed }.nextServed) ∧
    t.image.lastServed = (match t.image.delivery with
      | some x => x.ctx
      | none => s.image.lastServed) ∧
    ∀ x, t.image.delivery = some x → x.begins = max t.now (t.image.released.getD 0) ∧
      x.earliest = x.begins + 20 * (t.image.deliveryWords x.ctx).length
  let undisturbed (s t : State) : Prop := t.image.released = s.image.released ∧
    ∀ d, s.image.delivery = some d → t.image.delivery = some d ∧ t.image.lastServed = s.image.lastServed
  (∀ (s : State) (dt : Nat) (w : StreamWrite) (r : Request) (rest : List Request) (c : Instr),
    (c = .streamWrite dt (some w) ∧ (w.mode = none ∨ w.mode = some none)) ∨
      (c = .streamModeOn dt (some w) ∧ (w.mode = some (some .source) ∨ w.mode = some (some .sink))) ∨
      (c = .streamModeOff dt (some w) ∧ w.mode = some (some .off)) →
    Due s r rest .write → Names r .stream →
    Completes c s fun t =>
      let x := (s.image.ctx r.entry).still
      let y := (t.image.ctx r.entry).still
      let st := checkStreamWrite s r.entry w
      let emptied : Prop := (t.image.ctx r.entry).work =
          { write := 0, read := 0, held := 0, nextLine := 0, expectedLine := none, capture := none, triggers := [], segmentsDone := 0,
            assembly := none } ∧
        ∀ e ∈ t.forward.image, e.owner ≠ .segment r.entry
      (st ≠ .ok → Refused s t r rest st) ∧
      (w.mode = some none → Refused s t r rest (if x.record.mode = .off then .range else .state)) ∧
      (st = .ok →
        TakenFromQueue s t rest ∧ KeepsEntriesBut r.entry s.image.still.contexts t.image.still.contexts ∧
        KeepsEntriesBut r.entry s.mark.entries t.mark.entries ∧
        t.image.memory = s.image.memory ∧
        t.image.still = { s.image.still with contexts := t.image.still.contexts, released := t.image.released } ∧
        (x.record.mode = .off ∨ w.mode = none ∨ (∀ d, s.image.delivery = some d → d.ctx ≠ r.entry) → undisturbed s t) ∧
        KeepsAllBut [.image, .mark, .agent, .console, .forward] s t ∧
        Answered s t s.forward.management r .ok noData false ∧
        (w.mode = none → x.record.mode ≠ .off → y = x ∧ t.mark = s.mark) ∧
        (w.mode = none → x.record.mode = .off → y = { x with record := x.record.applyWrite w } ∧ t.mark = s.mark) ∧
        (∀ m, w.mode = some (some m) → m ≠ .off → y.record = { x.record.applyWrite w with mode := m } ∧
          y.work = ({} : StreamWork) ∧ y.counters = x.counters ∧ t.mark = s.mark ∧ (RegionLaw s → emptied)) ∧
        (w.mode = some (some .off) → x.record.mode ≠ .off → y.record = { x.record with mode := .off } ∧
          y.work = ({} : StreamWork) ∧
          (∀ d, s.image.delivery = some d → d.ctx = r.entry →
            y.counters = { x.counters with deliveryAborted := bump x.counters.deliveryAborted } ∧ LineReleased s t d ∧ chosenAnew s t) ∧
          ((∀ d, s.image.delivery = some d → d.ctx ≠ r.entry) → y.counters = x.counters) ∧
          (∀ m, s.mark.entries.get? r.entry = some m → t.mark.entries.get? r.entry =
            some { m with search := { m.search with pending := false, found := false } }) ∧
          (RegionLaw s → emptied)) ∧
        (w.mode = some (some .off) → x.record.mode = .off →
          y = { x with record := x.record.applyWrite w } ∧ t.mark = s.mark))) ∧
  ∀ (s : State) (dt : Nat) (r : Request) (rest : List Request), Due s r rest .streamRestart → Names r .stream →
    Completes (.streamRestart dt) s fun t =>
      let x := (s.image.ctx r.entry).still
      let y := (t.image.ctx r.entry).still
      TakenFromQueue s t rest ∧
      Answered s t s.forward.management r .ok noData false ∧
      KeepsEntriesBut r.entry s.image.still.contexts t.image.still.contexts ∧ t.image.memory = s.image.memory ∧
      t.image.still = { s.image.still with contexts := t.image.still.contexts, released := t.image.released } ∧
      (x.record.mode = .off ∨ (∀ d, s.image.delivery = some d → d.ctx ≠ r.entry) → undisturbed s t) ∧
      y.record = x.record ∧
      (x.record.mode = .off → y = x ∧ t.mark = s.mark) ∧
      (x.record.mode ≠ .off → y.work = ({} : StreamWork) ∧
        (RegionLaw s →
          (t.image.ctx r.entry).work =
            { write := 0, read := 0, held := 0, nextLine := 0, expectedLine := none, capture := none, triggers := [],
              segmentsDone := 0, assembly := none } ∧
          ∀ e ∈ t.forward.image, e.owner ≠ .segment r.entry) ∧
        (∀ d, s.image.delivery = some d → d.ctx = r.entry →
          y.counters = { x.counters with deliveryAborted := bump x.counters.deliveryAborted } ∧ LineReleased s t d ∧ chosenAnew s t) ∧
        ((∀ d, s.image.delivery = some d → d.ctx ≠ r.entry) → y.counters = x.counters) ∧
        (∀ m, s.mark.entries.get? r.entry = some m → t.mark.entries.get? r.entry =
          some { m with search := { m.search with pending := false, found := false } })) ∧
      KeepsEntriesBut r.entry s.mark.entries t.mark.entries ∧ KeepsAllBut [.image, .mark, .agent, .console, .forward] s t

/-- R98, R99: the values that a WRITE of a STREAM item is accepted with, and the status of one that is not: STATE at a context that is on;
at one in OFF RANGE for a value out of its range, and behind the ranges the answer of the first check of R99 that fails. That a value out of
its range gives RANGE also where a check of R99 that gives STATE fails, the ranges coming before the states, is the model's choice
(assumption 16). That a write which names no field is accepted, by a context that is on and by one in OFF, is the model's choice (assumption
71), and so is that one which names a field that may only be read is refused by a context in OFF, with STATE behind the ranges (assumption
82). -/
def Obligations.StreamWriteIsAcceptedExactly : Prop :=
  ∀ (s : State) (i : Nat) (w : StreamWrite), i < 8 → ∀ r, r = (s.image.ctx i).record →
    (r.mode ≠ .off → (checkStreamWrite s i w = .ok ↔ w = {} ∨ w = { mode := some (some .off) }) ∧
      (checkStreamWrite s i w = .ok ∨ checkStreamWrite s i w = .state)) ∧
    (r.mode = .off → ∀ n, n = r.applyWrite w →
      let inRange : Prop := (∀ x, w.base = some x → x ≤ 255) ∧ (∀ x, w.size = some x → x ≤ 256) ∧
      (∀ x, w.length = some x → 16 ≤ x ∧ x ≤ 8192 ∧ x % 16 = 0) ∧ (∀ x, w.pixel = some x → x = 1 ∨ x = 2) ∧
      w.order ≠ some none ∧ (∀ x, w.destNode = some x → 1 ≤ x ∧ x ≤ 63) ∧ (∀ x, w.destCtx = some x → x ≤ 7) ∧
      (∀ x, w.segment = some x → x = 256 ∨ x = 512 ∨ x = 1024) ∧ (∀ x, w.pitch = some x → 1 ≤ x ∧ x ≤ 1048576) ∧
      (∀ x, w.origin = some x → x ≤ 16777215) ∧ (∀ x, w.originNode = some x → 1 ≤ x ∧ x ≤ 63) ∧
      (∀ x, w.originCtx = some x → x ≤ 7) ∧ w.damaged ≠ some none ∧ w.mode ≠ some none
      let source : Prop := w.mode = some (some .source)
      let sink : Prop := w.mode = some (some .sink)
      let fails : List (Prop × Status) := [
        (source ∧ 2 ≤ i, .range),
        (source ∧ s.image.direction ≠ .capture ∨ sink ∧ s.image.direction ≠ .deliver, .state),
        (source ∧ i = 1 ∧ s.image.tap ≠ .single, .state),
        (source ∧ s.hasAddress = false, .state),
        ((source ∨ sink) ∧ 256 < n.base + n.size, .range),
        ((source ∨ sink) ∧ ∃ j, j < 8 ∧ j ≠ i ∧ (s.image.ctx j).record.mode ≠ .off ∧
          n.base < (s.image.ctx j).record.base + (s.image.ctx j).record.size ∧ (s.image.ctx j).record.base < n.base + n.size, .range),
        ((source ∨ sink) ∧ n.size / ((16 + n.length * n.pixel + 1023) / 1024) < 2, .range),
        (source ∧ (n.destNode = 63 ∨ n.destNode = s.address), .range),
        (source ∧ 32 < (n.length * n.pixel + n.segment - 1) / n.segment, .range),
        (sink ∧ n.originNode = 63, .range)]
      (checkStreamWrite s i w = .ok ↔ inRange ∧ w.readOnly = false ∧ ∀ x ∈ fails, ¬x.1) ∧
      (¬inRange → checkStreamWrite s i w = .range) ∧ (inRange → w.readOnly = true → checkStreamWrite s i w = .state) ∧
      (inRange → w.readOnly = false → ∀ (before after : List (Prop × Status)) (x : Prop × Status),
        fails = before ++ x :: after → (∀ y ∈ before, ¬y.1) → x.1 → checkStreamWrite s i w = x.2))

/-- R128 to R133: a segment frame consumed by a sink, addressed to this node or to all: foreign, stale or unstarted; taken into the line in
assembly, which it may close; or of the line that starts, behind the gap that is settled before it and the open line that is closed first
(what a gap and a start make of the slots, GapRule says). `RegionLaw` rules out segments of a SINK in the class queues, which no run reaches.
What a segment 0 too short for its line header carries is the model's choice (assumption 52). -/
def Obligations.SegmentFrameRule : Prop :=
  ∀ (s : State) (dt : Nat) (p : PortId) (bytes : List Byte) (f : Frame),
    Arrives s p bytes f → Consumed s f → f.kind = .segment →
    Completes (.frameArrival dt p bytes) s fun t =>
      let g := readSegment f.data
      KeepsEntriesBut g.destCtx s.image.still.contexts t.image.still.contexts ∧ KeepsBesides [.image] s t p f ∧
      (8 ≤ g.destCtx → t.image.still = s.image.still) ∧
      (g.destCtx < 8 → RegionLaw s →
        let c := s.image.ctx g.destCtx
        let y : SinkWork := ⟨t.image.memory, t.image.ctx g.destCtx⟩
        let foreign : Prop := c.record.mode ≠ .sink ∨ c.record.originNode ≠ f.origin.toNat ∨ c.record.originCtx ≠ g.srcCtx
        let received (k : StreamCounters) : SinkWork :=
          ⟨s.image.memory, { c with counters := { k with segmentsReceived := bump c.counters.segmentsReceived } }⟩
        let x := received c.counters
        let harmed := received { c.counters with damagedLine := bump c.counters.damagedLine }
        let stale : Prop := y = received { c.counters with staleSegment := bump c.counters.staleSegment }
        let holding (z : SinkWork) (a : Assembly) : SinkWork :=
          { z with ctx := { z.ctx with work := { z.ctx.work with assembly := some a } } }
        let into (z : SinkWork) (a : Assembly) : Prop := (g.last = false → y = holding z a) ∧ (g.last = true → LineClosed z y a)
        (foreign → c.record.mode ≠ .source → y = ⟨s.image.memory,
          { c with counters := { c.counters with foreignSegment := bump c.counters.foreignSegment } }⟩) ∧
        (foreign → t.image.memory = s.image.memory ∧ y.ctx.still =
          { c.still with counters := { c.still.counters with foreignSegment := bump c.counters.foreignSegment } }) ∧
        (¬foreign →
          (∀ a, c.work.assembly = some a →
            let fits : Prop := g.index = a.next ∧ g.offset = a.bytes ∧
              a.bytes + g.pixels.length ≤ c.record.length * c.record.pixel
            (g.line ≠ a.line → newer g.line a.line = false → stale) ∧
            (g.line = a.line → a.cond = .assembling → fits →
              into { x with memory :=
                  s.image.memory.write (c.record.slotAddress c.work.write + 16 + a.bytes) g.pixels }
                { a with bytes := a.bytes + g.pixels.length, next := a.next + 1 }) ∧
            (g.line = a.line → a.cond = .assembling → ¬fits → into harmed { a with cond := .damaged }) ∧
            (g.line = a.line → a.cond ≠ .assembling → into x a) ∧
            (newer g.line a.line = true → ∃ z : SinkWork,
              (a.cond = .assembling → LineClosed harmed z { a with cond := .damaged }) ∧ (a.cond ≠ .assembling → LineClosed x z a) ∧
              y = z.settleAndStart (a.line + 1) g)) ∧
          (c.work.assembly = none → c.work.expectedLine = none →
            (g.first = true → y = x.start g) ∧
            (g.first = false → y = received { c.counters with unstartedSegment := bump c.counters.unstartedSegment })) ∧
          ∀ n, c.work.assembly = none → c.work.expectedLine = some n →
            (g.line = n ∨ newer g.line n = true → y = x.settleAndStart n g) ∧
            (g.line ≠ n → newer g.line n = false → stale)))

/-- R130, R131, R133, R134: a gap of `k` line numbers at a sink, and the start of the line behind it. Under MARK each number becomes a held
notice, its header stored, while slots are free, and every number beyond is counted; under DROP none takes a slot. Then the new line
starts: DROPPED, and counted, when the region is full, else in a cleared slot, ASSEMBLING if its segment carries the first mark and can be
appended; a segment with the last mark closes it at once. The fields that R130 gives no value to are 0 (assumption 63). -/
def Obligations.GapRule : Prop :=
  (∀ (x : SinkWork) (n : BitVec 16) (k : Nat),
    let r := x.ctx.record
    let w := x.ctx.work
    let room := min k (r.capacity - w.held)
    let slot (j : Nat) : Nat := r.nextSlot^[j] w.write
    (r.damaged = .mark → x.missing n k = {
      memory := (List.range room).foldl
        (fun m j => m.write (r.slotAddress (slot j)) (lineHeader (n + BitVec.ofNat 16 j) 0 .missing 0)) x.memory
      ctx := { x.ctx with
        work := { w with held := w.held + room, write := slot room }
        counters := { x.ctx.counters with sinkOverrun := bumpBy x.ctx.counters.sinkOverrun (k - room) } } }) ∧
    (r.damaged = .drop → x.missing n k = { x with
      ctx := { x.ctx with counters := { x.ctx.counters with missingLine := bumpBy x.ctx.counters.missingLine k } } })) ∧
  (∀ (x : SinkWork) (n : BitVec 16) (g : Segment), x.settleAndStart n g = (x.missing n (g.line - n).toNat).start g) ∧
  ∀ (x : SinkWork) (g : Segment),
    let r := x.ctx.record
    let k := x.ctx.counters
    let slot := r.slotAddress x.ctx.work.write
    let cleared := x.memory.write (slot + 16) (List.replicate (r.length * r.pixel) 0)
    let fits : Prop := g.index = 0 ∧ g.offset = 0 ∧ g.pixels.length ≤ r.length * r.pixel
    let starts (m : Memory) (a : Assembly) (k : StreamCounters) : Prop :=
      let z : SinkWork := ⟨m, { x.ctx with
        work := { x.ctx.work with expectedLine := some g.line, assembly := some a }
        counters := k }⟩
      (g.last = false → x.start g = z) ∧ (g.last = true → LineClosed z (x.start g) a)
    (r.capacity ≤ x.ctx.work.held → starts x.memory ⟨g.line, 0, 0, 0, .dropped⟩ { k with sinkOverrun := bump k.sinkOverrun }) ∧
    (x.ctx.work.held < r.capacity → g.first = false → starts cleared ⟨g.line, 0, 0, 0, .damaged⟩ k) ∧
    (x.ctx.work.held < r.capacity → g.first = true → fits →
      starts (cleared.write (slot + 16) g.pixels) ⟨g.line, 1, g.pixels.length, g.tag, .assembling⟩ k) ∧
    (x.ctx.work.held < r.capacity → g.first = true → ¬fits →
      starts cleared ⟨g.line, 0, 0, g.tag, .damaged⟩ { k with damagedLine := bump k.damagedLine })

/-- R135, R136: the end of a delivery, with line-valid released, and the start of the next, which is of the context that the arbiter
chooses; and the arbiter's choice among the sinks with held lines, from the one after the last served on. The premise on the waiting frames
rules out segments of a SINK, which no run reaches (RegionLaw). And the words of a delivery: the context word, the header in 8 words, and
the pixel bytes of a line, not of a notice, two bytes a word, the lower one on tap 0. That the context word carries the number on tap 0 and 0
on tap 1, of which R135 says nothing, is the model's reading (assumption 35).
That the first word of the next delivery, and line-valid with it, come at the very instant of the end is the model's choice (assumption
64); when a delivery ends is the sender's to say, not before its earliest end (assumptions 7 and 36). -/
def Obligations.DeliveryRule : Prop :=
  (∀ (u : ImageUnit) (i : Nat),
    let c := u.ctx i
    let slot := c.record.slotAddress c.work.read
    let words := u.deliveryWords i
    let pixels := c.record.length * c.record.pixel
    c.record.length % 2 = 0 →
    words.head? = some (BitVec.ofNat 8 i, 0) ∧
    (∀ j, j < 8 → words[1 + j]? = some (u.memory.read (slot + 2 * j), u.memory.read (slot + 2 * j + 1))) ∧
    (u.memory.read (slot + 7) = 3 → words.length = 9) ∧
    (u.memory.read (slot + 7) ≠ 3 → words.length = 9 + pixels / 2 ∧
      ∀ j, j < pixels / 2 → words[9 + j]? =
        some (u.memory.read (slot + 16 + 2 * j), u.memory.read (slot + 16 + 2 * j + 1)))) ∧
  (∀ (s : State) (dt : Nat) (d : Delivery), s.image.delivery = some d → d.ctx < 8 →
    (s.image.ctx d.ctx).record.mode = .sink →
    (∀ e ∈ s.forward.management ++ s.forward.console ++ s.forward.image, ∀ j, e.owner = .segment j →
      (s.image.ctx j).record.mode ≠ .sink) →
    Completes (.deliveryEnd dt) s fun t =>
      let c := s.image.ctx d.ctx
      let freed : StreamContext := { c with
        work := { c.work with held := c.work.held - 1, read := c.record.nextSlot c.work.read, segmentsDone := 0 }
        counters := { c.counters with linesDelivered := bump c.counters.linesDelivered } }
      t.now = max (s.now + dt) d.earliest ∧ t.image.ctx d.ctx = freed ∧
      t.image.released = some t.now ∧ t.lineOut = t.image.delivery.isSome ∧
      KeepsEntriesBut d.ctx s.image.still.contexts t.image.still.contexts ∧ t.image.memory = s.image.memory ∧
      (s.image.direction = .capture → t.image.delivery = none) ∧
      (s.image.direction = .deliver → (t.image.delivery.map fun x => x.ctx) = (s.image.setCtx d.ctx freed).nextServed) ∧
      (∀ x, t.image.delivery = some x → (t.image.ctx x.ctx).record.mode = .sink ∧ 0 < (t.image.ctx x.ctx).work.held ∧
        t.image.lastServed = x.ctx ∧ x.begins = t.now ∧ x.earliest = t.now + 20 * (t.image.deliveryWords x.ctx).length) ∧
      (t.image.delivery = none → t.image.lastServed = s.image.lastServed) ∧
      KeepsAllBut [.image] s t) ∧
  ∀ (u : ImageUnit) (i : Nat), u.lastServed < 8 →
    let waits (j : Nat) : Prop := (u.ctx j).record.mode = .sink ∧ 0 < (u.ctx j).work.held
    (u.nextServed = some i ↔ ∃ k, k < 8 ∧ i = (u.lastServed + 1 + k) % 8 ∧ waits i ∧
      ∀ j, j < k → ¬waits ((u.lastServed + 1 + j) % 8)) ∧
    (u.nextServed = none ↔ ∀ j, j < 8 → ¬waits j)

/-- R118 to R124: a line taken by an enabled mark record. -/
def Obligations.MarkSearchRule : Prop :=
  ∀ (m : MarkEntry) (tag : ExtPos) (pixels : List Nat),
    let d := windowDistance tag m.record.phase
    let w : Int := m.record.window
    let x := (m.take tag pixels).1
    let sent := (m.take tag pixels).2
    let dark := ((List.range pixels.length).filter fun i =>
      decide (m.record.first ≤ i) && decide (i ≤ m.record.last) && decide (pixels.getD i 0 < m.record.dark)).length
    d ≤ 8388607 ∧ -8388608 ≤ d ∧ ((extPhase tag : Int) - (m.record.phase : Int) - d) % 16777216 = 0 ∧
    x.record = m.record ∧ x.counters.linesSearched = bump m.counters.linesSearched ∧
    (d < -w → x.search = { m.search with pending := true } ∧ sent = none ∧
      x.counters = { m.counters with linesSearched := x.counters.linesSearched }) ∧
    (-w ≤ d → d ≤ w →
      (m.search.found = true → x.search = m.search ∧ sent = none) ∧
      (m.search.found = false → dark < m.record.minimum → x.search = { m.search with lastDark := some dark } ∧ sent = none) ∧
      (m.search.found = false → m.record.minimum ≤ dark → ∃ c : Int, sent = some c ∧
        x.search = { m.search with
          found := true
          miss := 0
          status := .locked
          lastError := some d
          lastCorrection := some c
          lastDark := some dark } ∧
        x.counters.marksFound = bump m.counters.marksFound ∧
        (2 * (256 * c + d * m.record.gain)).natAbs ≤ 256 ∧
        ((2 * (256 * c + d * m.record.gain)).natAbs = 256 → (d * m.record.gain).natAbs < (256 * c).natAbs))) ∧
    (w < d → sent = none ∧
      (m.search.pending = false ∨ m.search.found = true → x.search = { m.search with pending := false, found := false } ∧
        x.counters.windowMiss = m.counters.windowMiss) ∧
      (m.search.pending = true → m.search.found = false → x.counters.windowMiss = bump m.counters.windowMiss ∧
        x.search = { m.search with
          pending := false
          found := false
          miss := if m.search.miss < 4 then m.search.miss + 1 else m.search.miss
          status := if m.search.miss < 3 then m.search.status else .lost } ∧
        (m.search.miss = 3 → m.search.status ≠ .lost → x.counters.markLost = true)))

/-- R116, R117: a WRITE of a MARK item. That one which names a field of the search state is refused with STATE is the model's choice
(assumption 82), and so is that one which names no field is answered OK (assumption 71). -/
def Obligations.MarkWriteRule : Prop :=
  ∀ (s : State) (dt : Nat) (w : MarkWrite) (r : Request) (rest : List Request) (m : MarkEntry),
    Due s r rest .write → Names r .mark → s.mark.entries.get? r.entry = some m →
    Completes (.markWrite dt (some w)) s fun t =>
      let n : MarkRecord := {
        enable := w.enable.getD m.record.enable
        node := w.node.getD m.record.node
        axis := w.axis.getD m.record.axis
        phase := w.phase.getD m.record.phase
        window := w.window.getD m.record.window
        first := w.first.getD m.record.first
        last := w.last.getD m.record.last
        dark := w.dark.getD m.record.dark
        minimum := w.minimum.getD m.record.minimum
        gain := w.gain.getD m.record.gain }
      let ok : Prop := (∀ x, w.node = some x → 1 ≤ x ∧ x ≤ 63) ∧ (∀ x, w.axis = some x → x ≤ 15) ∧
        (∀ x, w.phase = some x → x ≤ 16777215) ∧ (∀ x, w.window = some x → 1 ≤ x ∧ x ≤ 1048576) ∧
        (∀ x, w.first = some x → x ≤ 8191) ∧ (∀ x, w.last = some x → x ≤ 8191) ∧ (∀ x, w.dark = some x → x ≤ 65535) ∧
        (∀ x, w.minimum = some x → 1 ≤ x ∧ x ≤ 8192) ∧ (∀ x, w.gain = some x → x ≤ 255) ∧
        n.first ≤ n.last ∧ (n.enable = true → n.node ≠ 63)
      (¬ok → Refused s t r rest .range) ∧ (ok → w.readOnly = true → Refused s t r rest .state) ∧
      (ok → w.readOnly = false → TakenFromQueue s t rest ∧ Answered s t s.forward.management r .ok noData false ∧
        (∃ x : MarkEntry, t.mark.entries.get? r.entry = some x ∧ x.record = n ∧ x.counters = m.counters ∧
          (n.enable ≠ m.record.enable → x.search = {}) ∧
          (n.enable = m.record.enable → w.phase.isSome = true ∨ w.window.isSome = true →
            x.search = { m.search with pending := false, found := false }) ∧
          (n.enable = m.record.enable → w.phase = none → w.window = none → x.search = m.search)) ∧
        KeepsEntriesBut r.entry s.mark.entries t.mark.entries ∧ KeepsAllBut [.mark, .agent, .console, .forward] s t)

/-! ### The console (chapter 9) -/

/-- R140, R149, R198: a record from the console ends; the console transmitter starts the next record, in the order reply, event, system
tile, other tile, and a tile sent becomes CLEAN and leaves its queue; a record has been sent; the console's hold line changes. Behind the
start of a system tile, what tiles 253 to 255 show is compared with the state at the end of the command (R147): 253 and 254 show what
the command does not change, and 255 can change only where the end of the command hands the last segment of a line to a port.
A record that began before the end of the last reset is lost and counted nowhere: the model's choice (assumption 27). -/
def Obligations.ConsoleLineRules : Prop :=
  (∀ (s : State) (dt span : Nat) (bytes : List Byte), Completes (.consoleRecordIn dt span bytes) s fun t =>
    KeepsAllBut [.console] s t ∧
    (s.now + dt < s.resetEnd + span → t.console.still = s.console.still) ∧
    (s.resetEnd + span ≤ s.now + dt →
      (readConsoleRecord bytes = none → t.console.still = { s.console.still with
        counters := { s.console.counters with badRecord := bump s.console.counters.badRecord } }) ∧
      (∀ x, readConsoleRecord bytes = some x → s.console.outbound.length < 64 →
        t.console.still = { s.console.still with outbound := s.console.outbound ++ [x] }) ∧
      (∀ x, readConsoleRecord bytes = some x → 64 ≤ s.console.outbound.length → t.console.still = { s.console.still with
        counters := { s.console.counters with outboundOverflow := bump s.console.counters.outboundOverflow } }))) ∧
  (∀ (s : State) (dt : Nat), Completes (.consoleSendStart dt) s fun t =>
    let shown (k : Nat) : TileContent := if k = 253 then shownAxes s else if k = 254 then shownRing s else shownStreams t
    KeepsAllBut [.console] s t ∧
    (s.console.sending ≠ none ∨ s.console.holdIn = true → t.console.still = s.console.still) ∧
    (s.console.sending = none → s.console.holdIn = false →
      match s.console.replies, s.console.inbound, s.console.systemQueue, s.console.ordinaryQueue with
      | r :: rest, _, _, _ => t.console.still = { s.console.still with sending := some (.reply r), replies := rest }
      | [], e :: rest, _, _ => t.console.still = { s.console.still with sending := some (.event e), inbound := rest }
      | [], [], n :: rest, _ => ∀ x, s.console.tiles.get? n = some x →
          let sent := s.console.tiles.set n { x with state := .clean }
          t.console = { s.console with
            sending := some (.tile n x.lastWriter x.version x.content)
            tiles := t.console.tiles
            systemQueue := t.console.systemQueue } ∧
          (∀ k y, sent.get? k = some y → t.console.tiles.get? k = some (if 253 ≤ k ∧ y.content ≠ shown k
            then { y with state := .dirty, lastWriter := s.writer, version := some (y.version.getD 0 + 1), content := shown k }
            else y)) ∧
          t.console.systemQueue = rest ++ [253, 254, 255].filter (fun k =>
            (sent.get? k).any fun y => y.state != .dirty && y.content != shown k) ∧
          ((∀ i, i < 8 → (t.image.ctx i).work.held = (s.image.ctx i).work.held) → shownStreams t = shownStreams s)
      | [], [], [], n :: rest => ∀ x, s.console.tiles.get? n = some x →
          t.console.sending = some (.tile n x.lastWriter x.version x.content) ∧ t.console.ordinaryQueue = rest ∧
          (n < 252 → t.console.tiles.get? n = some { x with state := .clean })
      | [], [], [], [] => t.console.still = s.console.still)) ∧
  (∀ (s : State) (dt : Nat) (x : OutRecord), s.console.sending = some x → Completes (.consoleSendEnd dt) s fun t =>
    t.now = s.now + dt ∧ t.console.still = { s.console.still with sending := none } ∧
    t.agent = (if x.closing = true then
      { s.agent with resetWait := s.agent.resetWait.map fun w => { w with sent := some t.now } } else s.agent) ∧
    KeepsAllBut [.console, .agent] s t) ∧
  ∀ (s : State) (dt : Nat) (asserted : Bool), Completes (.consoleHoldChange dt asserted) s fun t =>
    t.console.still = { s.console.still with holdIn := asserted } ∧ KeepsAllBut [.console] s t

/-- R141, R142: the head of the outbound record queue routed, kind by kind and column by column; and at a node without an address, whose
tiles and requests stay with the node itself, whatever destination they name, and whose events are refused.
Destinations 64 to 255 are the model's choice (assumption 11). That a local event for all or for no node is refused without a count is the
model's reading (assumption 26). -/
def Obligations.RecordRoutingRule : Prop :=
  (∀ (s : State) (dt : Nat) (x : InRecord) (rest : List InRecord), s.hasAddress = true → s.console.outbound = x :: rest →
    Completes (.recordRouting dt) s fun t =>
      let gone := { s.console with outbound := rest }
      let waiting : Prop := ∃ e ∈ s.forward.console, e.owner = .consoleFrame
      let unroutable : Prop := t.console.still = { gone.still with
        counters := { gone.counters with unroutableRecord := bump gone.counters.unroutableRecord } } ∧ KeepsAllBut [.console] s t
      match x with
      | .tile d n v data =>
        if d = s.addressByte then
          t.console.still = (gone.update n.toNat s.address v data).still ∧ KeepsAllBut [.console] s t
        else if 62 < d.toNat then unroutable
        else (waiting → t.console.still = s.console.still ∧ KeepsAllBut [.console] s t) ∧
          (¬waiting → PlacedInConsoleClass s t .consoleFrame .tile d (n :: beBytes 2 v.toNat ++ data) ∧
            t.console.still = (if d = 0 then gone.update n.toNat s.address v data else gone).still ∧
            KeepsAllBut [.console, .forward] s t)
      | .event d code data =>
        if d = s.addressByte then
          (if s.console.inbound.length < 32 then t.console.still = { gone.still with
              inbound := s.console.inbound ++ [⟨s.addressByte, code, data⟩]
              counters := { gone.counters with eventsReceived := bump gone.counters.eventsReceived } }
            else t.console.still = (({ gone with
              counters := { gone.counters with eventRefusedFull := bump gone.counters.eventRefusedFull } } : ConsoleUnit).reply
                (.refused d code .full)).still) ∧ KeepsAllBut [.console] s t
        else if d = 0 ∨ 62 < d.toNat then
          t.console.still = (gone.reply (.refused d code .unaddressed)).still ∧ KeepsAllBut [.console] s t
        else (waiting → t.console.still = s.console.still ∧ KeepsAllBut [.console] s t) ∧
          (¬waiting → PlacedInConsoleClass s t .consoleFrame .event d (beBytes 2 code.toNat ++ data) ∧
            t.console.still = gone.still ∧ KeepsAllBut [.console, .forward] s t)
      | .request tag d kind item index data =>
        let r : Request := ⟨true, s.addressByte, tag, kind, item, index, data⟩
        let busy : Prop := ∃ e ∈ s.forward.management, e.owner = .consoleRequest
        let answered : Prop := t.console.still =
          (if s.agent.queue.length < 8 then gone else gone.reply (answerRecord s r .busy noData false)).still
        if d = s.addressByte then TakenOrBusy s t r ∧ answered ∧ KeepsAllBut [.console, .agent] s t
        else if 62 < d.toNat then unroutable
        else (busy → t.console.still = s.console.still ∧ KeepsAllBut [.console] s t) ∧
          (¬busy →
            PlacedInManagement s.forward.management
              ⟨Frame.own s.addressByte .request d (.bytes (beBytes 2 tag.toNat ++ [kind, item, index] ++ data)), .consoleRequest⟩ t ∧
            (d = 0 → TakenOrBusy s t r ∧ answered) ∧ (d ≠ 0 → t.agent = s.agent ∧ t.console.still = gone.still) ∧
            KeepsAllBut [.console, .forward, .agent] s t)) ∧
  ∀ (s : State) (dt : Nat) (x : InRecord) (rest : List InRecord), s.hasAddress = false → s.console.outbound = x :: rest →
    Completes (.recordRouting dt) s fun t =>
      let gone := { s.console with outbound := rest }
      match x with
      | .tile _ n v data => t.console.still = (gone.update n.toNat 63 v data).still ∧ KeepsAllBut [.console] s t
      | .event d code _ => t.console.still = (gone.reply (.refused d code .unaddressed)).still ∧ KeepsAllBut [.console] s t
      | .request tag _ kind item index data =>
        let r : Request := ⟨true, s.addressByte, tag, kind, item, index, data⟩
        TakenOrBusy s t r ∧ t.console.still =
          (if s.agent.queue.length < 8 then gone else gone.reply (answerRecord s r .busy noData false)).still ∧
        KeepsAllBut [.console, .agent] s t

/-- R144 to R146, R148, R150 to R153: a tile update judged and taken; tile, event, refusal and answer frames consumed, addressed to this
node or to all nodes; the node's own tile, event and refusal frames that come back; a WRITE of a TILE item.
That a WRITE of a TILE item that fails both checks is answered STATE, as R146 names them, is the model's choice (assumption 16), and so is
that one which names no field is answered OK, or STATE for a system tile (assumption 71); that a refusal or an answer to all nodes makes a
record is the model's reading (assumption 54). -/
def Obligations.TileAndEventRules : Prop :=
  (∀ (u : ConsoleUnit) (n writer : Nat) (v : BitVec 16) (data : List Byte) (x : Tile), u.tiles.get? n = some x →
    let k := u.counters
    let y := u.update n writer v data
    if 252 ≤ n ∨ (x.permitted ≠ 0 ∧ x.permitted ≠ writer) then
      y = { u with counters := { k with tileRefused := bump k.tileRefused } }
    else if writer = x.lastWriter ∧ ∃ o, x.version = some o ∧ newer v o = false then
      y = { u with counters := { k with tileStale := bump k.tileStale } }
    else
      y.tiles.get? n = some { x with state := .dirty, lastWriter := writer, version := some v, content := .bytes data } ∧
      KeepsEntriesBut n u.tiles y.tiles ∧
      y.ordinaryQueue = (if x.state = .dirty then u.ordinaryQueue else u.ordinaryQueue ++ [n]) ∧
      y = { u with
        tiles := y.tiles, ordinaryQueue := y.ordinaryQueue, counters := { k with tileAccepted := bump k.tileAccepted } }) ∧
  (∀ (s : State) (dt : Nat) (p : PortId) (bytes : List Byte) (f : Frame), Arrives s p bytes f → Consumed s f →
    Completes (.frameArrival dt p bytes) s fun t =>
      let k := s.console.counters
      let becomes (u : ConsoleUnit) : Prop := t.console.still = u.still ∧ KeepsBesides [.console] s t p f
      (f.kind = .tile → becomes
        (s.console.update (fieldAt f.data 0 1) f.origin.toNat (BitVec.ofNat 16 (fieldAt f.data 1 2)) (f.data.drop 3))) ∧
      (f.kind = .event →
        let code : BitVec 16 := BitVec.ofNat 16 (fieldAt f.data 0 2)
        (f.dest = 0 → becomes { s.console with counters := { k with badEvent := bump k.badEvent } }) ∧
        (f.dest ≠ 0 → s.console.inbound.length < 32 → becomes { s.console with
          inbound := s.console.inbound ++ [⟨f.origin, code, f.data.drop 2⟩]
          counters := { k with eventsReceived := bump k.eventsReceived } }) ∧
        (f.dest ≠ 0 → 32 ≤ s.console.inbound.length → t.console.still = { s.console.still with
            counters := { k with eventRefusedFull := bump k.eventRefusedFull } } ∧
          PlacedInConsoleClass s t .refusal .refusal f.origin (f.dest :: beBytes 2 code.toNat ++ [0]) ∧
          KeepsAllBut [.console, .forward, portBlock p] s t)) ∧
      (f.kind = .refusal →
        let told (reason : RefuseReason) : ConsoleUnit :=
          ({ s.console with counters := { k with refusalsReceived := bump k.refusalsReceived } } : ConsoleUnit).reply
            (.refused (byteAt f.data 0) (BitVec.ofNat 16 (fieldAt f.data 1 2)) reason)
        (byteAt f.data 3 = 0 → becomes (told .full)) ∧ (byteAt f.data 3 = 1 → becomes (told .unaddressed)) ∧
        (byteAt f.data 3 ≠ 0 → byteAt f.data 3 ≠ 1 → becomes s.console)) ∧
      (f.kind = .answer → becomes (s.console.reply
        (.answer (BitVec.ofNat 16 (fieldAt f.data 0 2)) f.origin (byteAt f.data 2) (.bytes (f.data.drop 3)) false)))) ∧
  (∀ (s : State) (dt : Nat) (p : PortId) (bytes : List Byte) (f : Frame),
    Arrives s p bytes f → s.hasAddress = true → f.origin = s.addressByte → ¬(p = .b ∧ s.forward.ring = .ring) →
    Completes (.frameArrival dt p bytes) s fun t =>
      let k := s.console.counters
      let becomes (u : ConsoleUnit) : Prop := t.console.still = u.still ∧ KeepsAllBut [.console, portBlock p] s t
      (f.kind = .tile →
        (f.dest = 0 → becomes s.console) ∧
        (f.dest ≠ 0 → becomes { s.console with counters := { k with tileReturned := bump k.tileReturned } })) ∧
      (f.kind = .event → becomes
        (({ s.console with counters := { k with eventRefusedUnaddressed := bump k.eventRefusedUnaddressed } } : ConsoleUnit).reply
          (.refused f.dest (BitVec.ofNat 16 (fieldAt f.data 0 2)) .unaddressed))) ∧
      (f.kind = .refusal → becomes { s.console with counters := { k with refusalReturned := bump k.refusalReturned } })) ∧
  ∀ (s : State) (dt : Nat) (w : TileWrite) (r : Request) (rest : List Request) (x : Tile),
    Due s r rest .write → Names r .tile → s.console.tiles.get? r.entry = some x →
    Completes (.tileWrite dt (some w)) s fun t =>
      if w.other = true ∨ 252 ≤ r.entry then Refused s t r rest .state
      else if w.permitted.any (fun n => decide (62 < n)) = true then Refused s t r rest .range
      else TakenFromQueue s t rest ∧ KeepsAllBut [.console, .agent, .forward] s t ∧
        Answered { s with console := { s.console with tiles := t.console.tiles } } t s.forward.management r .ok noData false ∧
        t.console.tiles.get? r.entry = some { x with permitted := w.permitted.getD x.permitted } ∧
        ∀ n, n ≠ r.entry → n < 252 → t.console.tiles.get? n = s.console.tiles.get? n

/-! ### The ring (chapters 10 to 12) -/

/-- R2, R151, R156, R157, R159, R161, R163 to R169, R176, R188: the bytes of a frame complete on a port, which counts them in its CRC
window, and leaves UP at the eighth error; a malformed frame; one whose hop budget is used up; a frame that goes out of the port that the
ring state gives, with its hop budget lowered, a cycle frame with the node's slot; the node's own frames that come back and are discarded.
At the eighth error the ring state is formed anew, with what follows it in the election unit (R176) and the class queues (R165, R167).
The transmitter of a port takes trip, cycle and transit frames before its own, and those by class, account and horizon. A frame comes onto
the line behind the identity record that the port sends on entering UP (R187); that this record goes out at the entry is the model's choice
(assumption 34). So is that a frame ends at its instant, or at once where that has passed (assumption 7), that an event to all nodes with hop
budget 0 is refused too (assumption 65), that this refusal has no counter of the console unit (assumption 66), and the bits of the slot to
which R173 gives no meaning (assumption 83). That a window's 1,024th frame and eighth error does both (assumption 28), that a malformed frame
counts as received (assumption 55), that the slot is captured as the copy is forwarded (assumption 24) and that a slot left unwritten by
another node goes on as it came (assumption 76) are its readings. -/
def Obligations.ForwardingRule : Prop :=
  (∀ (s : State) (dt : Nat) (p : PortId) (bytes : List Byte), Completes (.frameArrival dt p bytes) s fun t =>
    let l := (s.port p).link
    let full : Prop := 1024 ≤ l.frames + 1
    let counted (errors : Nat) (k : PortCounters) : Prop :=
      (full → (t.port p).link = { l with frames := 0, errors := 0, counters := k }) ∧
      (¬full → (t.port p).link = { l with frames := l.frames + 1, errors := errors, counters := k })
    let failed : PortCounters := { l.counters with crcError := bump l.counters.crcError }
    (l.state ≠ .up → KeepsAllBut [] s t) ∧
    (l.state = .up → l.errors < 8 →
      (receive bytes ≠ .error → counted l.errors l.counters) ∧
      (receive bytes = .error → l.errors < 7 → counted (l.errors + 1) failed ∧ KeepsAllBut [portBlock p] s t) ∧
      (receive bytes = .error → l.errors = 7 → LeftUp s t p { failed with qualityDrop := true } ∧ RingFormed s t ∧
        KeepsAllBut [portBlock p, .forward, .election] s t) ∧
      (receive bytes = .malformed → t.forward.still = { s.forward.still with
          counters := { s.forward.still.counters with malformed := bump s.forward.counters.malformed } } ∧
        KeepsAllBut [.forward, portBlock p] s t) ∧
      ∀ f, receive bytes = .frame f → f.hop = 0 →
        let k := { s.forward.counters with hopExpired := bump s.forward.counters.hopExpired }
        (f.kind = .event → s.hasAddress = true →
          PlacedInConsoleClass { s with forward := { s.forward with counters := k } } t .refusal .refusal f.origin
            (f.dest :: beBytes 2 (fieldAt f.data 0 2) ++ [1])) ∧
        (f.kind ≠ .event ∨ s.hasAddress = false → t.forward.still = ({ s.forward with counters := k } : ForwardUnit).still) ∧
        KeepsAllBut [.forward, portBlock p] s t)) ∧
  (∀ (s : State) (dt : Nat) (p : PortId) (bytes : List Byte) (f : Frame), Arrives s p bytes f →
    Completes (.frameArrival dt p bytes) s fun t =>
      let copy : Frame := { f with hop := f.hop - 1 }
      let own : Prop := s.hasAddress = true ∧ f.origin = s.addressByte
      let passes : Prop := s.hasAddress = false ∨ (f.origin ≠ s.addressByte ∧ f.dest ≠ s.addressByte)
      (f.kind ≠ .cycle → f.kind ≠ .trip →
        s.hasAddress = false ∨ (passes ∧ f.dest ≠ 0 ∧ f.kind ≠ .claim) ∨ (own ∧ p = .b ∧ s.forward.ring = .ring) →
        GoesOn s t p copy ∧ KeepsAllBut [.portA, .portB] s t) ∧
      (passes → RingLaw s → ∃ q, outPort s.forward.ring p = some q ∧
        (f.kind = .trip → HandedToTripQueue s t q copy) ∧
        (f.kind = .cycle → s.hasAddress = false → HandedToCycleQueue s t q copy) ∧
        (f.kind = .cycle → s.hasAddress = true →
          let n := (readCycle f.data).number
          let start := 548 + 8 * (s.address - 1)
          ∃ x, SlotContent s n x ∧ t.cycle.capture = some (n, x) ∧
            HandedToCycleQueue s t q { copy with
              payload := .bytes (f.data.take start ++ beBytes 8 x.toNat ++ f.data.drop (start + 8)) })) ∧
      (passes → f.kind = .trip → s.hasAddress = false ∨ f.dest ≠ 0 → KeepsAllBut [.portA, .portB] s t) ∧
      (own → f.kind = .trip → KeepsAllBut [portBlock p] s t) ∧
      (own → ¬(p = .b ∧ s.forward.ring = .ring) → f.kind = .segment ∨ f.kind = .correction ∨ f.kind = .answer →
        t.forward.still = { s.forward.still with
          counters := { s.forward.still.counters with returned := bump s.forward.counters.returned } } ∧
        KeepsAllBut [.forward, portBlock p] s t)) ∧
  ∀ (s : State) (p : PortId) (x : Sending), (s.port p).sending = some x → Completes (.portFrameEnd p) s fun t =>
    let q := s.port p
    t.now = max s.now x.ends ∧
    t.agent = (if x.closing = true then
      { s.agent with resetWait := s.agent.resetWait.map fun w => { w with sent := some t.now } } else s.agent) ∧
    KeepsAllBut [.agent] s t ∧
    (q.link.state ≠ .up → (t.port p).sending = none) ∧
    (q.link.state = .up →
      let free : Time := max t.now (match q.link.identity with
        | some x => x + 4 * q.link.rate.byteTime
        | none => 0)
      let starts (f : Frame) (transit closing : Bool) : Prop :=
        (t.port p).sending = some ⟨f, free + f.time q.link.rate, transit, closing⟩
      match q.trips, q.cycles, q.transit with
      | f :: rest, _, _ => starts f false false ∧ (t.port p).trips = rest ∧ (t.port p).cycles = q.cycles ∧
          (t.port p).transit = q.transit
      | [], f :: rest, _ => starts f false false ∧ (t.port p).cycles = rest ∧ (t.port p).transit = q.transit
      | [], [], f :: rest => starts f true false ∧ (t.port p).transit = rest
      | [], [], [] =>
        (ownSendPort s.forward.ring ≠ some p → (t.port p).sending = none) ∧
        (ownSendPort s.forward.ring = some p → ClassFrameChosen s t p))

/-- R19, R20, R176 to R181: the listen timer and the claim timer run out; a claim of another node, forwarded with its floor lowered,
dropped, or yielded to by a claimant or, where it is a conflict claim, by a master; a foreign copy at a master, and a copy heard by a node
that is not master; a returned claim wins, with the cycle unit of the new master whole. (The claim step at the entry to LOST,
SubstituteCycleRule says.) That a timer acts at its instant, or at once where that has passed (assumption 7), that a claim with the master's
own claimer address is dropped (assumption 56) and never stronger (assumption 84), that a master drops one with an attempt number over 5
(assumption 68), that a master which has sent no frame keeps its last velocities (assumption 22), that a floor byte that is neither code is
not REDUCED (assumption 69), that V and Vt are clamped with the J written last (assumption 62), and that Vt is the last target velocity of
an earlier term where no copy has been taken since reset (assumption 74), are the model's choices; that the bad claims come before the table
is its reading (assumption 32). -/
def Obligations.ElectionRules : Prop :=
  (∀ (s : State) (c : Instr) (x : Time),
    (c = .listenTimerExpiry ∧ s.election.state = .listening ∧ s.election.listenTimer = some x) ∨
      (c = .claimTimerExpiry ∧ s.election.state = .claiming ∧ s.election.claimTimer = some x) →
    Completes c s fun t =>
      t.now = max s.now x ∧
      (c = .listenTimerExpiry → ClaimStepTaken s t { s.election with quiet := false }) ∧
      (c = .claimTimerExpiry → ClaimStepTaken s t s.election) ∧
      (5 ≤ s.election.attempts → Block.forward.same s t) ∧
      t.forward.still = { s.forward.still with
        counters := { s.forward.still.counters with managementOverflow := t.forward.counters.managementOverflow } } ∧
      KeepsAllBut [.election, .forward] s t) ∧
  (∀ (s : State) (dt : Nat) (p : PortId) (bytes : List Byte) (f : Frame),
    Arrives s p bytes f → s.hasAddress = true → f.origin ≠ s.addressByte → f.kind = .claim →
    Completes (.frameArrival dt p bytes) s fun t =>
      let claimer := fieldAt f.data 0 1
      let priority := fieldAt f.data 1 1
      let attempt := fieldAt f.data 2 1
      let e := s.election
      let bad : Prop := claimer = 0 ∨ 62 < claimer ∨ priority = 0 ∨ 15 < priority
      let stronger : Prop := claimer ≠ s.address ∧ (e.priority < priority ∨ (e.priority = priority ∧ claimer < s.address))
      let forwarded : ElectionCounters := { e.counters with claimsForwarded := bump e.counters.claimsForwarded }
      let dropped : ElectionCounters := { e.counters with claimsDropped := bump e.counters.claimsDropped }
      let ends (x : ElectionUnit) : Prop := t.election = x ∧ KeepsAllBut [.election, portBlock p] s t
      let goesOn (x : ElectionUnit) : Prop := t.election = x ∧ KeepsAllBut [.election, .portA, .portB] s t ∧
        ∃ data, (SlowPort s → data = f.data.set 3 1) ∧ (¬SlowPort s → data = f.data) ∧
          GoesOn s t p { f with hop := f.hop - 1, payload := .bytes data }
      (bad → ends { e with counters := { e.counters with badClaim := bump e.counters.badClaim } }) ∧
      (¬bad →
        (e.state = .passive ∨ e.state = .listening ∨ e.state = .failed → goesOn { e with counters := forwarded }) ∧
        (e.state = .claiming → ¬stronger → ends { e with counters := dropped }) ∧
        (e.state = .claiming → stronger →
          goesOn (ListensAnew s t { e with state := .listening, claimTimer := none, counters := forwarded })) ∧
        (e.state = .master → attempt ≠ 0 ∨ ¬stronger → ends { e with counters := dropped }) ∧
        (e.state = .master → attempt = 0 → stronger → LeftMaster s.cycle t.cycle ∧
          t.election = ListensAnew s t { e with
            state := .listening, attempts := 0, claimTimer := none
            counters := { dropped with masterConflict := bump e.counters.masterConflict } } ∧
          KeepsAllBut [.cycle, .election, portBlock p] s t))) ∧
  (∀ (s : State) (dt : Nat) (p : PortId) (bytes : List Byte) (f : Frame),
    Arrives s p bytes f → f.kind = .cycle →
    Completes (.frameArrival dt p bytes) s fun t =>
      (s.election.state = .master → Consumed s f →
        { t.cycle with capture := s.cycle.capture } = s.cycle ∧ KeepsAllBut [.cycle, .election, .forward, .portA, .portB] s t ∧
        (s.election.conflictPlaced = true → t.election = s.election ∧ Block.forward.same s t) ∧
        (s.election.conflictPlaced = false → ClaimPlaced s t 0 ∧ t.election = { s.election with
          conflictPlaced := true
          counters := { s.election.counters with conflictClaimsPlaced := bump s.election.counters.conflictClaimsPlaced } })) ∧
      (s.election.state ≠ .master → s.hasAddress = false ∨ Consumed s f →
        ∃ e : ElectionUnit, (e = s.election ∨ e = { s.election with conflictPlaced := false }) ∧
          (e.state = .passive → t.election = e) ∧
          (e.state = .listening → t.election = ListensAnew s t { e with quiet := false, attempts := 0 }) ∧
          (e.state = .claiming ∨ e.state = .failed →
            t.election = ListensAnew s t { e with state := .listening, attempts := 0, claimTimer := none }))) ∧
  ∀ (s : State) (dt : Nat) (p : PortId) (bytes : List Byte) (f : Frame),
    Arrives s p bytes f → s.hasAddress = true → f.origin = s.addressByte → f.kind = .claim →
    ¬(p = .b ∧ s.forward.ring = .ring) →
    Completes (.frameArrival dt p bytes) s fun t =>
      let u := s.cycle
      let e := s.election
      let wins : Prop := e.state = .claiming ∧ byteAt f.data 2 ≠ 0
      (wins → t.election = { e with
          state := .master
          attempts := 0
          claimTimer := none
          counters := { e.counters with electionsWon := bump e.counters.electionsWon } } ∧
        (t.cycle.ringRate = .reduced ↔
          byteAt f.data 3 = 1 ∨ ∃ q, (s.port q).link.state = .up ∧ (s.port q).link.rate = .reduced) ∧
        t.cycle = { u with
          ringRate := t.cycle.ringRate
          gen := { u.gen with position := u.mloc, v := clampMag u.jump u.lastStep, vt := clampMag u.jump u.lastTarget }
          sync := .synced
          substitutes := 0
          workingPeriod := u.configuredPeriod
          returned := []
          sentNumber := none
          frameTotal := u.lastTotal
          frameArea := u.lastArea } ∧
        KeepsAllBut [.cycle, .election, portBlock p] s t) ∧
      (¬wins → t.election = { e with
          counters := { e.counters with ownClaimDiscarded := bump e.counters.ownClaimDiscarded } } ∧
        KeepsAllBut [.election, portBlock p] s t)

/-- R165, R167, R176, R185 to R187, R189: the five events of a fibre link, the link they leave whole, and what a port sends: no light in
DISABLED, in ACQUIRE the acquisition signal and since word lock its identity record every 10 µs, in UP the record once more and then frames.
That a port is dark while RESET is held is the model's choice (assumption 6); that the acquisition signal stands between the identity
records and through the wait of the retry timer is its reading (assumption 34). Where a port enters or leaves UP the ring state is formed
anew: in LISTENING the listen timer stops in ISOLATED and starts again behind it at the value it was last started with (R176), and the class
queues, settings, accounts and horizon stay, for the port that is the own-send port then (R165, R167). That an identity record is taken
whatever its address and letter bytes are is the model's choice (assumption 57), and so is that a timer acts at its instant, or at once
where that has passed (assumption 7). -/
def Obligations.LinkEventRules : Prop :=
  (∀ (s : State) (p : PortId) (x : Time), (s.port p).link.state = .acquire → (s.port p).link.watchdog = some x →
    Completes (.lockWatchdogExpiry p) s fun t =>
      t.now = max s.now x ∧ AttemptFailed (s.port p).link (t.port p).link t.now ∧
      (t.port p).counters = (s.port p).counters ∧ KeepsAllBut [portBlock p] s t) ∧
  (∀ (s : State) (p : PortId) (x : Time), (s.port p).link.state = .acquire → (s.port p).link.retry = some x →
    Completes (.retryTimerExpiry p) s fun t =>
      let l := (s.port p).link
      let m := (t.port p).link
      t.now = max s.now x ∧
      m = { l with
        rate := if l.attempt ≤ 3 then .full else .reduced
        identity := none
        watchdog := some (t.now + 2000000)
        retry := none
        counters := { l.counters with downgraded := l.counters.downgraded || decide (3 < l.attempt) } } ∧
      (t.port p).counters = (s.port p).counters ∧ KeepsAllBut [portBlock p] s t) ∧
  (∀ (s : State) (dt : Nat) (p : PortId), Completes (.wordLockGained dt p) s fun t =>
    let l := (s.port p).link
    (t.port p).link =
      (if l.state = .acquire ∧ l.watchdog ≠ none ∧ l.identity = none then { l with identity := some t.now } else l) ∧
    t.now = s.now + dt ∧ (t.port p).counters = (s.port p).counters ∧ KeepsAllBut [portBlock p] s t) ∧
  (∀ (s : State) (dt : Nat) (p : PortId) (bytes : List Byte), bytes.length = 4 →
    Completes (.identityRecordIn dt p bytes) s fun t =>
      let l := (s.port p).link
      let enters : Prop := l.state = .acquire ∧ l.watchdog ≠ none ∧ l.identity ≠ none ∧
        bytes.drop 2 = beBytes 2 (crc16 (bytes.take 2)).toNat
      t.now = s.now + dt ∧
      (enters → (t.port p).link = { l with
          state := .up
          watchdog := none
          identity := some t.now
          beenUp := true
          frames := 0
          errors := 0
          neighbour := some (byteAt bytes 0, byteAt bytes 1)
          counters := { l.counters with linkUp := bump l.counters.linkUp } } ∧ RingFormed s t ∧
        (t.port p).counters = (s.port p).counters ∧
        KeepsAllBut [portBlock p, .forward, .election] s t) ∧
      (¬enters → KeepsAllBut [] s t)) ∧
  (∀ (s : State) (p : PortId) (k d : Nat),
    let q := s.port p
    let l := q.link
    let span := if l.rate = .full then 16 else 32
    let letter : List Byte := [s.straps.setWidth 8, if p = .a then 0 else 1]
    let record : PortSignal := .identity l.rate (letter ++ beBytes 2 (crc16 letter).toNat)
    (s.resetHeld = true ∨ l.state = .disabled → s.portSends p = .dark) ∧
    (s.resetHeld = false → l.state = .acquire → l.identity = none → s.portSends p = .acquisition l.rate) ∧
    (s.resetHeld = false → l.state = .acquire → ∀ x, l.identity = some x → s.now = x + 10000 * k + d →
      (d < span → s.portSends p = record) ∧ (span ≤ d → d < 10000 → s.portSends p = .acquisition l.rate)) ∧
    (s.resetHeld = false → l.state = .up → ∀ x, l.identity = some x → x ≤ s.now → s.now < x + span → s.portSends p = record) ∧
    (s.resetHeld = false → l.state = .up → (∀ x, l.identity = some x → x + span ≤ s.now) →
      (∀ y, q.sending = some y → s.portSends p = .frame l.rate y.frame) ∧
      (q.sending = none → s.portSends p = .idle l.rate))) ∧
  ∀ (s : State) (dt : Nat) (p : PortId), Completes (.lockLost dt p) s fun t =>
    let q := s.port p
    let m := (t.port p).link
    t.now = s.now + dt ∧
    (q.link.state = .up → LeftUp s t p { q.link.counters with lockLost := true } ∧ m.frames = q.link.frames ∧
      m.errors = q.link.errors ∧ RingFormed s t ∧
      KeepsAllBut [portBlock p, .forward, .election] s t) ∧
    (q.link.state = .disabled → KeepsAllBut [] s t) ∧
    (q.link.state = .acquire → q.link.watchdog ≠ none → q.link.identity ≠ none →
      AttemptFailed q.link m t.now ∧ (t.port p).counters = q.counters ∧ KeepsAllBut [portBlock p] s t) ∧
    (q.link.state = .acquire → q.link.watchdog = none ∨ q.link.identity = none → KeepsAllBut [] s t)

/-! ### Management (chapter 13, R182, R190) -/

/-- R165, R167, R176, R182, R190, R198: what a WRITE of a PORT item, a RETRAIN, a RING RESTART and a NODE RESET do. That a WRITE which names
a field that may only be read is refused with STATE (assumption 82), and one which names no field answered OK (assumption 58), is the
model's choice. Where a disable or a RETRAIN forms the ring state anew, the listen timer follows it (R176), and the class queues and
accounts stay for the port that is the own-send port then, which also the answer waits for (R165, R167; assumption 20). The order of the
effects within a RING RESTART is the model's choice (assumption 9), and so is that a master which has sent no frame keeps its last
velocities (assumption 22), and so is when the word then on the lines of an aborted delivery ends (assumptions 36 and 64). A RING RESTART
leaves the axis table as it is (R22, R182) where the trip view is what its contributions make, as `TripLaw` says of every run; it keeps the
mark records (R115) and, of the search of a context that runs, all but the pending and found marks (R117), a context in OFF being changed in
nothing (R100). The image block it leaves whole: direction, tap mode, records (R97), the last served (R136), line memory, the levels and
pulses of the outside. -/
def Obligations.PortAndRingRequestRules : Prop :=
  (∀ (s : State) (dt : Nat) (w : PortWrite) (r : Request) (rest : List Request), Due s r rest .write → Names r .port →
    Completes (.portEnableWrite dt (some w)) s fun t =>
      let p : PortId := if r.index = 0 then .a else .b
      let l := (s.port p).link
      let m := (t.port p).link
      let sets (on : Bool) : Prop := w.enable = some (some on) ∧ w.readOnly = false
      let answers := if r.loc = true then 0 else 1
      (w.enable = some none → Refused s t r rest .range) ∧
      (w.enable ≠ some none → w.readOnly = true → Refused s t r rest .state) ∧
      (w.enable = none → w.readOnly = false → m = l ∧ KeepsAllBut [.agent, .console, .forward] s t) ∧
      (w.enable ≠ some none → w.readOnly = false → TakenFromQueue s t rest ∧ Answered { s with forward := { s.forward with ring := t.forward.ring } } t
          s.forward.management r .ok noData false ∧
        KeepsAllBut [portBlock p, .forward, .election, .agent, .console] s t) ∧
      (sets true → l.state = .disabled → m = { AtAttemptOne l t.now with enabled := true, beenUp := false }) ∧
      (sets true → l.state ≠ .disabled → m = l) ∧
      (sets false → l.state = .disabled → m = l) ∧
      (sets false → l.state ≠ .disabled →
        m = { l with state := .disabled, enabled := false, identity := none, watchdog := none, retry := none } ∧ FramesFlushed s t p ∧
        RingLaw t ∧ ElectionFollowsRing s t ∧ OwnFramesStay answers s t) ∧
      (¬(sets false ∧ l.state ≠ .disabled) →
        t.forward.ring = s.forward.ring ∧ t.election = s.election ∧ (t.port p).counters = (s.port p).counters)) ∧
  (∀ (s : State) (dt : Nat) (r : Request) (rest : List Request), Due s r rest .retrain → Names r .port →
    Completes (.retrain dt) s fun t =>
      let p : PortId := if r.index = 0 then .a else .b
      let l := (s.port p).link
      let m := (t.port p).link
      (l.state = .disabled → Refused s t r rest .state) ∧
      (l.state ≠ .disabled → TakenFromQueue s t rest ∧ m = { AtAttemptOne l t.now with enabled := true, beenUp := false } ∧
        FramesFlushed s t p ∧ RingLaw t ∧ ElectionFollowsRing s t ∧ OwnFramesStay (if r.loc = true then 0 else 1) s t ∧
        Answered { s with forward := { s.forward with ring := t.forward.ring } } t s.forward.management r .ok noData false ∧
        KeepsAllBut [portBlock p, .forward, .election, .agent, .console] s t)) ∧
  (∀ (s : State) (dt : Nat) (r : Request) (rest : List Request), Due s r rest .ringRestart →
    Completes (.ringRestart dt) s fun t =>
      let e := s.election
      TakenFromQueue s t rest ∧
      (e.state = .passive → t.election = e) ∧
      (e.state ≠ .passive → t.election = { e with
        state := .listening
        attempts := 0
        conflictPlaced := false
        quiet := true
        claimTimer := none
        listenValue := 5000000
        listenTimer := if s.forward.ring = .isolated then none else some (t.now + 5000000) }) ∧
      (e.state ≠ .master → t.cycle = s.cycle) ∧ (e.state = .master → LeftMaster s.cycle t.cycle) ∧
      (∀ p, (t.port p).trips = [] ∧ (t.port p).cycles = [] ∧ (t.port p).transit = [] ∧ (t.port p).link = (s.port p).link ∧
        (t.port p).counters = (s.port p).counters ∧ ∀ x, (s.port p).sending = some x → (t.port p).sending = some x) ∧
      (∀ n, n < 62 → t.trip.dedupe.get? n = some none) ∧ (∀ c, c < 32 → t.trip.held.get? c = some none) ∧
      t.trip.own = s.trip.own ∧ t.trip.total = s.trip.total ∧ t.trip.upstream = s.trip.upstream ∧ t.trip.blank = s.trip.blank ∧
      t.trip.actions = s.trip.actions ∧ t.trip.active = s.trip.active ∧
      (TripLaw s → t.axis = s.axis) ∧
      ViewFormed { s.trip with dedupe := Table.replicate 62 none, held := Table.replicate 32 none } s t ∧
      t.image = { s.image with
        contexts := t.image.contexts, delivery := t.image.delivery, released := t.image.released } ∧
      (∀ i, i < 8 →
        let c := s.image.ctx i
        (c.record.mode = .off → t.image.ctx i = c) ∧
        (c.record.mode ≠ .off → t.image.ctx i = { c with
          work := {
            write := 0, read := 0, held := 0, nextLine := 0, expectedLine := none, capture := none, triggers := [], segmentsDone := 0,
            assembly := none }
          counters := if (s.image.delivery.map fun d => d.ctx) = some i
            then { c.counters with deliveryAborted := bump c.counters.deliveryAborted } else c.counters })) ∧
      (∀ d, s.image.delivery = some d → (s.image.ctx d.ctx).record.mode ≠ .off → t.image.delivery = none ∧ LineReleased s t d) ∧
      ((∀ d, s.image.delivery = some d → (s.image.ctx d.ctx).record.mode = .off) →
        t.image.delivery = s.image.delivery ∧ t.image.released = s.image.released) ∧
      (∀ i m, s.mark.entries.get? i = some m →
        ((s.image.ctx i).record.mode = .off → t.mark.entries.get? i = some m) ∧
        ((s.image.ctx i).record.mode ≠ .off →
          t.mark.entries.get? i = some { m with search := { m.search with pending := false, found := false } })) ∧
      t.forward.console = [] ∧ t.forward.image = [] ∧ (r.loc = true → t.forward.management = []) ∧
      Answered { s with forward := { s.forward with management := [] } } t [] r .ok noData false ∧
      KeepsAllBut [.cycle, .axis, .trip, .image, .mark, .election, .portA, .portB, .forward, .console, .agent] s t) ∧
  ∀ (s : State) (dt : Nat) (r : Request) (rest : List Request), Due s r rest .nodeReset →
    Completes (.nodeReset dt) s fun t =>
      t.now = s.now + dt ∧ t.agent = { s.agent with queue := rest, resetWait := some ⟨t.now + 10000000, none⟩ } ∧
      Answered s t s.forward.management r .ok noData true ∧ KeepsAllBut [.agent, .console, .forward] s t

/-- R193 to R195, R197: a request frame consumed, and the node's own that comes back; the checks that every execution begins with, in their
order; a WRITE, a SET SPEED or a TRIP RESET whose data is too short, and an AXIS request that names none of the five commands; and a command
that finds no request of its own at the head of the queue.
Which row executes which request is the model's choice (assumption 15), and so is that origins of 64 and more are bad origins (assumption
12), that too short data comes before SET SPEED's other checks (assumption 17), that the UNKNOWN for a returned request has no counter of
its own (assumption 81), that a RING RESTART waits for the agent's own answer like
every request (assumption 59) and that a BUSY answer that waits holds nothing back (assumption 70). -/
def Obligations.RequestsAreTakenAndChecked : Prop :=
  (∀ (s : State) (dt : Nat) (p : PortId) (bytes : List Byte) (f : Frame), Arrives s p bytes f → Consumed s f → f.kind = .request →
    Completes (.frameArrival dt p bytes) s fun t =>
      let tag : BitVec 16 := BitVec.ofNat 16 (fieldAt f.data 0 2)
      let e : ClassEntry := ⟨Frame.own s.addressByte .answer f.origin (.bytes (beBytes 2 tag.toNat ++ [5])), .busyAnswer⟩
      KeepsBesides [.agent, .forward] s t p f ∧
      if f.origin = 0 ∨ 62 < f.origin.toNat then
        t.agent = { s.agent with counters := { s.agent.counters with badOrigin := bump s.agent.counters.badOrigin } } ∧
          Block.forward.same s t
      else
        TakenOrBusy s t ⟨false, f.origin, tag, byteAt f.data 2, byteAt f.data 3, byteAt f.data 4, f.data.drop 5⟩ ∧
        (s.agent.queue.length < 8 → Block.forward.same s t) ∧
        (8 ≤ s.agent.queue.length → PlacedInManagement s.forward.management e t ∧
          t.forward.still = (s.forward.place .management e).still)) ∧
  (∀ (s : State) (dt : Nat) (p : PortId) (bytes : List Byte) (f : Frame),
    Arrives s p bytes f → s.hasAddress = true → f.origin = s.addressByte → f.kind = .request → ¬(p = .b ∧ s.forward.ring = .ring) →
    Completes (.frameArrival dt p bytes) s fun t =>
      (f.dest = 0 → KeepsAllBut [portBlock p] s t) ∧
      (f.dest ≠ 0 →
        t.agent = { s.agent with
          counters := { s.agent.counters with requestReturned := bump s.agent.counters.requestReturned } } ∧
        t.console.still = (s.console.reply (.answer (BitVec.ofNat 16 (fieldAt f.data 0 2)) 63 1 noData false)).still ∧
        KeepsAllBut [.agent, .console, portBlock p] s t)) ∧
  (∀ (s : State) (c : Instr) (k : RequestKind) (mine : Request → Bool), rowOf c = some (k, mine) →
    Completes c s fun t =>
      ((∀ r rest, s.agent.queue = r :: rest → mine r = true → agentFree s = false) → KeepsAllBut [] s t) ∧
      ∀ r rest, s.agent.queue = r :: rest → mine r = true → agentFree s = true →
        let known : Prop := match k.use with
          | .none => True
          | .any => r.itemOf ≠ none
          | .only i => r.itemOf = some i
        let inRange : Prop := match k.use with
          | .none => True
          | .any => ∀ i, r.itemOf = some i → r.entry < i.entries
          | .only i => r.entry < i.entries
        let answered (st : Status) (a : AgentCounters) : Prop :=
          t.agent = { s.agent with queue := rest, counters := a } ∧ Answered s t s.forward.management r st noData false ∧
            KeepsAllBut [.agent, .console, .forward] s t
        let n := s.agent.counters
        (k ≠ .read ∧ permitted s r = false → answered .denied { n with denied := bump n.denied }) ∧
        (k = .read ∨ permitted s r = true →
          (¬known → answered .unknown { n with unknown := bump n.unknown }) ∧
          (known → ¬inRange → answered .range n) ∧
          (known → inRange → isShortWrite c = true → (∀ i, r.itemOf = some i → Item.readOnly i = false) →
            answered .range n) ∧
          (known → inRange →
            (k = .setSpeed ∧ r.data.length < 6) ∨ (k = .tripReset ∧ r.data.length < 4) ∨
              (k = .axis ∧ ∀ b, r.data.head? = some b → b = 0 ∨ 5 < b.toNat) →
            answered .range n))) ∧
  ∀ (s : State) (dt : Nat) (r : Request) (rest : List Request), s.agent.queue = r :: rest → r.kindOf = none → agentFree s = true →
    Completes (.unknownRequestKind dt) s fun t =>
      t.agent = { s.agent with
        queue := rest
        counters := { s.agent.counters with unknown := bump s.agent.counters.unknown } } ∧
      Answered s t s.forward.management r .unknown noData false ∧ KeepsAllBut [.agent, .console, .forward] s t

/-- R64, R196: READ returns the entry and changes nothing; READ-CLEAR returns a block's counters and clears them; WRITE of a staging
term, of the staging length, or of an item that is only read. That a WRITE which names no field is answered OK, or STATE where the item is
only read, is the model's choice (assumption 71). -/
def Obligations.ReadAndPlainWriteRules : Prop :=
  (∀ (s : State) (dt : Nat) (r : Request) (rest : List Request) (i : Item), Due s r rest .read → Names r i →
    Completes (.read dt) s fun t =>
      TakenFromQueue s t rest ∧ KeepsAllBut [.agent, .console, .forward] s t ∧
      ∃ v : EntryValue, Answered s t s.forward.management r .ok (.entry v) false ∧
        (i = .axis → v = .axis (s.axis.entries.getD r.entry {}).readable (s.drive.status.getD r.entry none)) ∧
        (i = .term → v = .term (s.trip.staging.terms.getD r.entry {})) ∧
        (i = .programLength → v = .programLength s.trip.staging.length) ∧
        (i = .activeTerm → v = .activeTerm (s.trip.active.terms.getD r.entry {}) s.trip.active.length) ∧
        (i = .action → v = .action (s.trip.actions.getD r.entry {})) ∧
        (i = .mark → v = .mark (s.mark.entries.getD r.entry {}).record (s.mark.entries.getD r.entry {}).search) ∧
        (i = .tile → v = .tile (s.console.tiles.getD r.entry {})) ∧
        (i = .node → v = .node {
          cycle := s.cycle, direction := s.image.direction, tap := s.image.tap, lastServed := s.image.lastServed
          allowance := s.forward.allowance, consoleCap := s.forward.consoleCap, allowanceEff := s.forward.allowanceEff
          managementUsed := s.forward.managementUsed, consoleUsed := s.forward.consoleUsed, sharedUsed := s.forward.sharedUsed
          ring := s.forward.ring
          ownSend := match s.forward.ring with
            | .ring => some .b
            | .lineA => some .a
            | .lineB => some .b
            | .isolated => none
          queues := {
            tripA := s.portA.trips.length, tripB := s.portB.trips.length
            cycleA := s.portA.cycles.length, cycleB := s.portB.cycles.length
            transitA := s.portA.transitBytes, transitB := s.portB.transitBytes
            management := s.forward.management.length, console := s.forward.console.length, image := s.forward.image.length
            outbound := s.console.outbound.length, inbound := s.console.inbound.length, replies := s.console.replies.length }
          holdOut := s.console.outbound.length == 64, holdIn := s.console.holdIn
          election := s.election.state, priority := s.election.priority, attempts := s.election.attempts, quiet := s.election.quiet
          claimRemaining := s.election.claimTimer.map fun x => x - t.now
          listenRemaining := s.election.listenTimer.map fun x => x - t.now
          permit := s.agent.permit, straps := s.straps }) ∧
        (i = .stream →
          let c := s.image.ctx r.entry
          v = .stream {
            record := c.record, slotSize := c.record.slotSize, capacity := c.record.capacity
            write := c.work.write, read := c.work.read, held := c.work.held, nextLine := c.work.nextLine
            capturing := c.work.capture.isSome, scheduled := c.work.triggers.length
            expectedLine := c.work.expectedLine, assembly := c.work.assembly
            delivering := s.image.delivery.any fun d => d.ctx == r.entry }) ∧
        (i = .port →
          let l := (if r.entry = 0 then s.portA else s.portB).link
          v = .port {
            state := l.state, enabled := l.enabled, rate := l.rate, attempt := l.attempt, beenUp := l.beenUp
            frames := l.frames, errors := l.errors, neighbour := l.neighbour
            timer := match l.watchdog with
              | some x => some (x - t.now)
              | none => l.retry.map fun x => x - t.now }) ∧
        (i = .view → v = .view {
          own := s.trip.own, sources := s.trip.sources, filtered := s.trip.filtered, blank := s.trip.blank, seq := s.trip.seq
          view := s.trip.view, held := s.trip.held, total := s.trip.total, upstream := s.trip.upstream, dedupe := s.trip.dedupe
          outputs := s.trip.outputs
          strongest := [strongest s.trip.actions s.trip.view 0, strongest s.trip.actions s.trip.view 1,
            strongest s.trip.actions s.trip.view 2, strongest s.trip.actions s.trip.view 3] }) ∧
        (i = .counters → ∀ b, ([.cycle s.cycle.counters, .axis s.axis.counters, .drive s.drive.counters, .trip s.trip.counters,
          .image (s.image.contexts.list.map fun c => c.counters), .mark (s.mark.entries.list.map fun m => m.counters),
          .console s.console.counters, .forward s.forward.counters s.portA.counters s.portB.counters,
          .election s.election.counters, .port s.portA.link.counters, .port s.portB.link.counters,
          .agent s.agent.counters] : List BlockCounters)[r.entry]? = some b → v = .counters b)) ∧
  (∀ (s : State) (dt : Nat) (r : Request) (rest : List Request), Due s r rest .readClear → Names r .counters → r.entry < 12 →
    Completes (.readClear dt) s fun t =>
      let answered (u : State) (c : BlockCounters) : Prop := Answered u t u.forward.management r .ok (.entry (.counters c)) false
      let keeps (l : List Block) : Prop := KeepsAllBut (l ++ [.agent, .console, .forward]) s t
      let portCleared (q : FibrePort) : FibrePort := { q.still with link := { q.link with counters := {} } }
      (r.entry ≠ 11 → TakenFromQueue s t rest) ∧
      (r.entry = 0 → answered s (.cycle s.cycle.counters) ∧ t.cycle = { s.cycle with counters := {} } ∧ keeps [.cycle]) ∧
      (r.entry = 1 → answered s (.axis s.axis.counters) ∧ t.axis = { s.axis with counters := {} } ∧ keeps [.axis]) ∧
      (r.entry = 2 → answered s (.drive s.drive.counters) ∧ t.drive = { s.drive with counters := {} } ∧ keeps [.drive]) ∧
      (r.entry = 3 → answered s (.trip s.trip.counters) ∧ t.trip.still = { s.trip.still with counters := {} } ∧ keeps [.trip]) ∧
      (r.entry = 4 → answered s (.image (s.image.contexts.list.map fun c => c.counters)) ∧
        (∀ i, i < 8 → (t.image.ctx i).still = { (s.image.ctx i).still with counters := (t.image.ctx i).still.counters } ∧
          (t.image.ctx i).still.counters = ({} : StreamCounters)) ∧ t.image.memory = s.image.memory ∧ keeps [.image]) ∧
      (r.entry = 5 → answered s (.mark (s.mark.entries.list.map fun m => m.counters)) ∧
        (∀ i m, s.mark.entries.get? i = some m → t.mark.entries.get? i = some { m with counters := {} }) ∧ keeps [.mark]) ∧
      (r.entry = 6 → answered { s with console := { s.console with counters := {} } } (.console s.console.counters) ∧ keeps []) ∧
      (r.entry = 7 → answered { s with forward := { s.forward with counters := {} } }
          (.forward s.forward.counters s.portA.counters s.portB.counters) ∧
        t.portA.still = { s.portA.still with counters := {} } ∧ t.portB.still = { s.portB.still with counters := {} } ∧
        keeps [.portA, .portB]) ∧
      (r.entry = 8 → answered s (.election s.election.counters) ∧ t.election = { s.election with counters := {} } ∧
        keeps [.election]) ∧
      (r.entry = 9 → answered s (.port s.portA.link.counters) ∧ t.portA.still = portCleared s.portA ∧ keeps [.portA]) ∧
      (r.entry = 10 → answered s (.port s.portB.link.counters) ∧ t.portB.still = portCleared s.portB ∧ keeps [.portB]) ∧
      (r.entry = 11 → answered s (.agent s.agent.counters) ∧ t.agent = { s.agent with queue := rest, counters := {} } ∧ keeps [])) ∧
  ∀ (s : State) (dt : Nat) (w : PlainWrite) (r : Request) (rest : List Request) (i : Item), Due s r rest .write → Names r i →
    i = .term ∨ i = .programLength ∨ Item.readOnly i = true →
    Completes (.write dt (some w)) s fun t =>
      (Item.readOnly i = true → Refused s t r rest .state) ∧
      (i = .term →
        let ok : Prop := (∀ x, w.source = some x → x ≤ 127) ∧ w.op ≠ some none ∧ ∀ x, w.target = some (some x) → x ≤ 31
        (¬ok → Refused s t r rest .range) ∧
        (ok → ∀ x, s.trip.staging.terms.get? r.entry = some x →
          TakenFromQueue s t rest ∧ Answered s t s.forward.management r .ok noData false ∧
          t.trip.staging.terms.get? r.entry = some {
            source := w.source.getD x.source
            negate := w.negate.getD x.negate
            op := (w.op.getD (some x.op)).getD x.op
            last := w.last.getD x.last
            target := w.target.getD x.target } ∧
          KeepsEntriesBut r.entry s.trip.staging.terms t.trip.staging.terms ∧
          t.trip.still = { s.trip.still with staging := { s.trip.staging with terms := t.trip.staging.terms } } ∧
          KeepsAllBut [.trip, .agent, .console, .forward] s t)) ∧
      (i = .programLength →
        (∀ n, w.length = some n → 128 < n → Refused s t r rest .range) ∧
        ((∀ n, w.length = some n → n ≤ 128) →
          TakenFromQueue s t rest ∧ Answered s t s.forward.management r .ok noData false ∧
          t.trip.still = { s.trip.still with
            staging := { s.trip.staging with length := w.length.getD s.trip.staging.length } } ∧
          KeepsAllBut [.trip, .agent, .console, .forward] s t))

/-- R2, R111, R156, R173: what is sent is received. A frame with bytes as payload, of a length in its kind's range, arrives as it was sent;
the checks of R156 on any bytes, with the lengths of chapter 10.1; a console record and the fields of a cycle frame, of a segment frame and
of a setpoint record are read as they were written; the bytes of a slot. The bits of a byte to which R173 gives no meaning are 0: the model's
choice (assumption 83). That bytes behind the CRC-32 are not looked at, and too few bytes are a bad length, is its reading (assumption 43). -/
def Obligations.WhatIsSentIsReceived : Prop :=
  (∀ k : FrameKind, k.lengths = match k with
    | .cycle => (1044, 1044) | .trip => (5, 5) | .claim => (4, 4) | .segment => (8, 1048) | .tile => (4, 67) | .event => (2, 18)
    | .refusal => (4, 4) | .correction => (5, 5) | .request => (5, 1029) | .answer => (3, 1027)) ∧
  (∀ l : List Byte,
    let n := fieldAt l 4 2
    let passes : Prop := 8 ≤ l.length ∧ (l.drop 6).take 2 = beBytes 2 (crc16 (l.take 6)).toNat ∧ n ≤ 1100 ∧ n + 12 ≤ l.length ∧
      (l.drop (8 + n)).take 4 = beBytes 4 (crc32 (l.take (8 + n))).toNat
    (¬passes → receive l = .error) ∧
    (passes → FrameKind.ofCode (byteAt l 0) = none → receive l = .malformed) ∧
    (passes → ∀ k, FrameKind.ofCode (byteAt l 0) = some k →
      (n < k.lengths.1 ∨ k.lengths.2 < n → receive l = .malformed) ∧
      (k.lengths.1 ≤ n → n ≤ k.lengths.2 →
        receive l = .frame ⟨k, byteAt l 1, byteAt l 2, byteAt l 3, .bytes ((l.drop 8).take n)⟩))) ∧
  (∀ (sync : SyncState) (links : RingState) (following faulted : Nat) (streams : Byte) (own : Marks),
    let x := makeSlot sync links following faulted streams own
    beBytes 8 x.toNat = [BitVec.ofNat 8 (128 + 16 * sync.code + links.code), BitVec.ofNat 8 following, BitVec.ofNat 8 faulted,
      streams] ++ beBytes 4 own.toNat ∧ slotWritten x = true ∧ slotWord x = own) ∧
  (∀ (destCtx srcCtx : Nat) (line : BitVec 16) (index offset : Nat) (last : Bool) (header pixels : List Byte),
    destCtx < 256 → srcCtx < 256 → index < 256 → offset < 65536 → header.length = 16 →
    readSegment (segmentPayload destCtx srcCtx line index offset last header pixels) =
      ⟨destCtx, srcCtx, line, index, offset, decide (index = 0), last,
        if index = 0 then BitVec.ofNat 40 (fieldAt header 2 5) else 0, pixels⟩) ∧
  (∀ (f : Frame) (data : List Byte), f.payload = .bytes data → f.kind.lengths.1 ≤ data.length → data.length ≤ f.kind.lengths.2 →
    receive f.encode = .frame f) ∧
  (∀ d n v data, 1 ≤ data.length → data.length ≤ 64 → readConsoleRecord (InRecord.tile d n v data).toBytes = some (.tile d n v data)) ∧
  (∀ d c data, data.length ≤ 16 → readConsoleRecord (InRecord.event d c data).toBytes = some (.event d c data)) ∧
  (∀ g d k i x data, data.length ≤ 1024 →
    readConsoleRecord (InRecord.request g d k i x data).toBytes = some (.request g d k i x data)) ∧
  (∀ number rate period master position v vt delay total previous current, -2147483648 ≤ v → v ≤ 2147483647 →
    -2147483648 ≤ vt → vt ≤ 2147483647 → delay < 65536 →
    readCycle (writeCycle number rate period master position v vt delay total previous current) =
      ⟨number, some rate, some period, master, position, v, vt, delay, total,
        previous.map fun x => if slotWritten x then x else 0, current.map fun x => if slotWritten x then x else 0⟩) ∧
  ∀ (tag : Byte) (h : Handed), h.axis < 16 → -8388608 ≤ h.feed → h.feed ≤ 8388607 →
    (setpointRecord tag h).length = 11 ∧ crc16Good (setpointRecord tag h) = true ∧
    byteAt (setpointRecord tag h) 0 =
      BitVec.ofNat 8 (16 * h.axis + (if h.enabled = true then 8 else 0) + (if h.stop = true then 4 else 0)) ∧
    fieldAt (setpointRecord tag h) 0 1 / 16 = h.axis ∧ byteAt (setpointRecord tag h) 1 = tag ∧
    fieldAt (setpointRecord tag h) 2 4 = h.setpoint.toNat ∧ intAt (setpointRecord tag h) 6 3 = h.feed

/-! ### The laws of the device, kept by every step -/

/-- R27, R40, R43, R60, R86, R90: the gear remainder, the correction and the stop groups; the trip view, the outputs and the hold
timers. The stop group of an axis is the one in use since the last cycle event (R23): the model's choice (assumption 46). -/
def Obligations.EveryStepKeepsTheAxisAndTripLaws : Prop := StepKeeps fun s => AxisLaw s ∧ TripLaw s

/-- R158, R174, R176, R178: the ring state and the election timers. -/
def Obligations.EveryStepKeepsTheRingAndElectionLaws : Prop := StepKeeps fun s => RingLaw s ∧ ElectionLaw s

/-- R140, R148, R150, R153, R164, R165, R168, R193: the bounds of the queues, the delivery queue holding exactly the DIRTY tiles, and
the law of the device on allowance. And R100, R164 to R168, R171: through every command but a reset the queues of the ports, the sending
frames, the class queues and the accounts are the ones before, but for what `QueuesMoved` names. -/
def Obligations.EveryStepKeepsTheQueueLawsAndMovesTheQueues : Prop :=
  (StepKeeps fun s => QueueLaw s ∧ DeliveryLaw s ∧ AllowanceLaw s) ∧
  ∀ (c : Instr) (s : State), ¬Resets c s → Completes c s fun t => QueuesMoved c s t

/-- R59, R61: every source, once the changes handed are taken, has the value of its condition. R143, R147: the contents of the system tiles
are what the state shows, and through every command but a reset a system tile is written when what it shows changes, and joins the delivery
queue unless it was DIRTY; else it is as before. The order in which the tiles that one command changes join the queue is the model's
choice (assumption 10). -/
def Obligations.EveryStepKeepsTheSourceAndTileLaws : Prop :=
  StepKeeps SourceLaw ∧ StepKeeps TileLaw ∧
  ∀ (c : Instr) (s : State), ¬Resets c s → Completes c s fun t => SystemTilesShown c s t

/-- R99: the law of the device on regions. -/
def Obligations.EveryStepKeepsTheRegionLaw : Prop := StepKeeps RegionLaw

/-- The laws hold right after reset.
The straps of State.reset, all low, are the model's choice (assumption 3), and so are the levels at its pins (assumption 4). -/
def Obligations.TheLawsHoldAtReset : Prop :=
  AxisLaw State.reset ∧ TripLaw State.reset ∧ RingLaw State.reset ∧ ElectionLaw State.reset ∧ DeliveryLaw State.reset ∧
    QueueLaw State.reset ∧ AllowanceLaw State.reset ∧ SourceLaw State.reset ∧ TileLaw State.reset ∧ RegionLaw State.reset ∧
    MemoryLaw State.reset
end

