-- ==== Sys2Proof/Laws/State.lean ====
section
/-!
SUPPORT. What each update of the state leaves in each of its fields, and how the queue of waiting commands and the clock ride
along. Later proofs cite these and unfold no record update.
-/
namespace Sys2Proof.Machine

section Setters
variable (s : State)

/-! ### setCycle -/

@[simp] theorem State.setCycle_now (x : CycleUnit) : (s.setCycle x).now = s.now := rfl
@[simp] theorem State.setCycle_resetEnd (x : CycleUnit) : (s.setCycle x).resetEnd = s.resetEnd := rfl
@[simp] theorem State.setCycle_straps (x : CycleUnit) : (s.setCycle x).straps = s.straps := rfl
@[simp] theorem State.setCycle_resetHeld (x : CycleUnit) : (s.setCycle x).resetHeld = s.resetHeld := rfl
@[simp] theorem State.setCycle_cycle (x : CycleUnit) : (s.setCycle x).cycle = x := rfl
@[simp] theorem State.setCycle_axis (x : CycleUnit) : (s.setCycle x).axis = s.axis := rfl
@[simp] theorem State.setCycle_drive (x : CycleUnit) : (s.setCycle x).drive = s.drive := rfl
@[simp] theorem State.setCycle_trip (x : CycleUnit) : (s.setCycle x).trip = s.trip := rfl
@[simp] theorem State.setCycle_image (x : CycleUnit) : (s.setCycle x).image = s.image := rfl
@[simp] theorem State.setCycle_mark (x : CycleUnit) : (s.setCycle x).mark = s.mark := rfl
@[simp] theorem State.setCycle_console (x : CycleUnit) : (s.setCycle x).console = s.console := rfl
@[simp] theorem State.setCycle_forward (x : CycleUnit) : (s.setCycle x).forward = s.forward := rfl
@[simp] theorem State.setCycle_election (x : CycleUnit) : (s.setCycle x).election = s.election := rfl
@[simp] theorem State.setCycle_portA (x : CycleUnit) : (s.setCycle x).portA = s.portA := rfl
@[simp] theorem State.setCycle_portB (x : CycleUnit) : (s.setCycle x).portB = s.portB := rfl
@[simp] theorem State.setCycle_agent (x : CycleUnit) : (s.setCycle x).agent = s.agent := rfl
@[simp] theorem State.setCycle_pending (x : CycleUnit) : (s.setCycle x).pending = s.pending := rfl
@[simp] theorem State.setCycle_port (x : CycleUnit) (p : PortId) : (s.setCycle x).port p = s.port p := by cases p <;> rfl
@[simp] theorem State.setCycle_self : s.setCycle s.cycle = s := rfl
@[simp] theorem State.setCycle_again (x y : CycleUnit) : (s.setCycle x).setCycle y = s.setCycle y := rfl

/-! ### setAxis -/

@[simp] theorem State.setAxis_now (x : AxisUnit) : (s.setAxis x).now = s.now := rfl
@[simp] theorem State.setAxis_resetEnd (x : AxisUnit) : (s.setAxis x).resetEnd = s.resetEnd := rfl
@[simp] theorem State.setAxis_straps (x : AxisUnit) : (s.setAxis x).straps = s.straps := rfl
@[simp] theorem State.setAxis_resetHeld (x : AxisUnit) : (s.setAxis x).resetHeld = s.resetHeld := rfl
@[simp] theorem State.setAxis_cycle (x : AxisUnit) : (s.setAxis x).cycle = s.cycle := rfl
@[simp] theorem State.setAxis_axis (x : AxisUnit) : (s.setAxis x).axis = x := rfl
@[simp] theorem State.setAxis_drive (x : AxisUnit) : (s.setAxis x).drive = s.drive := rfl
@[simp] theorem State.setAxis_trip (x : AxisUnit) : (s.setAxis x).trip = s.trip := rfl
@[simp] theorem State.setAxis_image (x : AxisUnit) : (s.setAxis x).image = s.image := rfl
@[simp] theorem State.setAxis_mark (x : AxisUnit) : (s.setAxis x).mark = s.mark := rfl
@[simp] theorem State.setAxis_console (x : AxisUnit) : (s.setAxis x).console = s.console := rfl
@[simp] theorem State.setAxis_forward (x : AxisUnit) : (s.setAxis x).forward = s.forward := rfl
@[simp] theorem State.setAxis_election (x : AxisUnit) : (s.setAxis x).election = s.election := rfl
@[simp] theorem State.setAxis_portA (x : AxisUnit) : (s.setAxis x).portA = s.portA := rfl
@[simp] theorem State.setAxis_portB (x : AxisUnit) : (s.setAxis x).portB = s.portB := rfl
@[simp] theorem State.setAxis_agent (x : AxisUnit) : (s.setAxis x).agent = s.agent := rfl
@[simp] theorem State.setAxis_pending (x : AxisUnit) : (s.setAxis x).pending = s.pending := rfl
@[simp] theorem State.setAxis_port (x : AxisUnit) (p : PortId) : (s.setAxis x).port p = s.port p := by cases p <;> rfl
@[simp] theorem State.setAxis_self : s.setAxis s.axis = s := rfl
@[simp] theorem State.setAxis_again (x y : AxisUnit) : (s.setAxis x).setAxis y = s.setAxis y := rfl

/-! ### setDrive -/

@[simp] theorem State.setDrive_now (x : DriveLink) : (s.setDrive x).now = s.now := rfl
@[simp] theorem State.setDrive_resetEnd (x : DriveLink) : (s.setDrive x).resetEnd = s.resetEnd := rfl
@[simp] theorem State.setDrive_straps (x : DriveLink) : (s.setDrive x).straps = s.straps := rfl
@[simp] theorem State.setDrive_resetHeld (x : DriveLink) : (s.setDrive x).resetHeld = s.resetHeld := rfl
@[simp] theorem State.setDrive_cycle (x : DriveLink) : (s.setDrive x).cycle = s.cycle := rfl
@[simp] theorem State.setDrive_axis (x : DriveLink) : (s.setDrive x).axis = s.axis := rfl
@[simp] theorem State.setDrive_drive (x : DriveLink) : (s.setDrive x).drive = x := rfl
@[simp] theorem State.setDrive_trip (x : DriveLink) : (s.setDrive x).trip = s.trip := rfl
@[simp] theorem State.setDrive_image (x : DriveLink) : (s.setDrive x).image = s.image := rfl
@[simp] theorem State.setDrive_mark (x : DriveLink) : (s.setDrive x).mark = s.mark := rfl
@[simp] theorem State.setDrive_console (x : DriveLink) : (s.setDrive x).console = s.console := rfl
@[simp] theorem State.setDrive_forward (x : DriveLink) : (s.setDrive x).forward = s.forward := rfl
@[simp] theorem State.setDrive_election (x : DriveLink) : (s.setDrive x).election = s.election := rfl
@[simp] theorem State.setDrive_portA (x : DriveLink) : (s.setDrive x).portA = s.portA := rfl
@[simp] theorem State.setDrive_portB (x : DriveLink) : (s.setDrive x).portB = s.portB := rfl
@[simp] theorem State.setDrive_agent (x : DriveLink) : (s.setDrive x).agent = s.agent := rfl
@[simp] theorem State.setDrive_pending (x : DriveLink) : (s.setDrive x).pending = s.pending := rfl
@[simp] theorem State.setDrive_port (x : DriveLink) (p : PortId) : (s.setDrive x).port p = s.port p := by cases p <;> rfl
@[simp] theorem State.setDrive_self : s.setDrive s.drive = s := rfl
@[simp] theorem State.setDrive_again (x y : DriveLink) : (s.setDrive x).setDrive y = s.setDrive y := rfl

/-! ### setTrip -/

@[simp] theorem State.setTrip_now (x : TripUnit) : (s.setTrip x).now = s.now := rfl
@[simp] theorem State.setTrip_resetEnd (x : TripUnit) : (s.setTrip x).resetEnd = s.resetEnd := rfl
@[simp] theorem State.setTrip_straps (x : TripUnit) : (s.setTrip x).straps = s.straps := rfl
@[simp] theorem State.setTrip_resetHeld (x : TripUnit) : (s.setTrip x).resetHeld = s.resetHeld := rfl
@[simp] theorem State.setTrip_cycle (x : TripUnit) : (s.setTrip x).cycle = s.cycle := rfl
@[simp] theorem State.setTrip_axis (x : TripUnit) : (s.setTrip x).axis = s.axis := rfl
@[simp] theorem State.setTrip_drive (x : TripUnit) : (s.setTrip x).drive = s.drive := rfl
@[simp] theorem State.setTrip_trip (x : TripUnit) : (s.setTrip x).trip = x := rfl
@[simp] theorem State.setTrip_image (x : TripUnit) : (s.setTrip x).image = s.image := rfl
@[simp] theorem State.setTrip_mark (x : TripUnit) : (s.setTrip x).mark = s.mark := rfl
@[simp] theorem State.setTrip_console (x : TripUnit) : (s.setTrip x).console = s.console := rfl
@[simp] theorem State.setTrip_forward (x : TripUnit) : (s.setTrip x).forward = s.forward := rfl
@[simp] theorem State.setTrip_election (x : TripUnit) : (s.setTrip x).election = s.election := rfl
@[simp] theorem State.setTrip_portA (x : TripUnit) : (s.setTrip x).portA = s.portA := rfl
@[simp] theorem State.setTrip_portB (x : TripUnit) : (s.setTrip x).portB = s.portB := rfl
@[simp] theorem State.setTrip_agent (x : TripUnit) : (s.setTrip x).agent = s.agent := rfl
@[simp] theorem State.setTrip_pending (x : TripUnit) : (s.setTrip x).pending = s.pending := rfl
@[simp] theorem State.setTrip_port (x : TripUnit) (p : PortId) : (s.setTrip x).port p = s.port p := by cases p <;> rfl
@[simp] theorem State.setTrip_self : s.setTrip s.trip = s := rfl
@[simp] theorem State.setTrip_again (x y : TripUnit) : (s.setTrip x).setTrip y = s.setTrip y := rfl

/-! ### setImage -/

@[simp] theorem State.setImage_now (x : ImageUnit) : (s.setImage x).now = s.now := rfl
@[simp] theorem State.setImage_resetEnd (x : ImageUnit) : (s.setImage x).resetEnd = s.resetEnd := rfl
@[simp] theorem State.setImage_straps (x : ImageUnit) : (s.setImage x).straps = s.straps := rfl
@[simp] theorem State.setImage_resetHeld (x : ImageUnit) : (s.setImage x).resetHeld = s.resetHeld := rfl
@[simp] theorem State.setImage_cycle (x : ImageUnit) : (s.setImage x).cycle = s.cycle := rfl
@[simp] theorem State.setImage_axis (x : ImageUnit) : (s.setImage x).axis = s.axis := rfl
@[simp] theorem State.setImage_drive (x : ImageUnit) : (s.setImage x).drive = s.drive := rfl
@[simp] theorem State.setImage_trip (x : ImageUnit) : (s.setImage x).trip = s.trip := rfl
@[simp] theorem State.setImage_image (x : ImageUnit) : (s.setImage x).image = x := rfl
@[simp] theorem State.setImage_mark (x : ImageUnit) : (s.setImage x).mark = s.mark := rfl
@[simp] theorem State.setImage_console (x : ImageUnit) : (s.setImage x).console = s.console := rfl
@[simp] theorem State.setImage_forward (x : ImageUnit) : (s.setImage x).forward = s.forward := rfl
@[simp] theorem State.setImage_election (x : ImageUnit) : (s.setImage x).election = s.election := rfl
@[simp] theorem State.setImage_portA (x : ImageUnit) : (s.setImage x).portA = s.portA := rfl
@[simp] theorem State.setImage_portB (x : ImageUnit) : (s.setImage x).portB = s.portB := rfl
@[simp] theorem State.setImage_agent (x : ImageUnit) : (s.setImage x).agent = s.agent := rfl
@[simp] theorem State.setImage_pending (x : ImageUnit) : (s.setImage x).pending = s.pending := rfl
@[simp] theorem State.setImage_port (x : ImageUnit) (p : PortId) : (s.setImage x).port p = s.port p := by cases p <;> rfl
@[simp] theorem State.setImage_self : s.setImage s.image = s := rfl
@[simp] theorem State.setImage_again (x y : ImageUnit) : (s.setImage x).setImage y = s.setImage y := rfl

/-! ### setMark -/

@[simp] theorem State.setMark_now (x : MarkUnit) : (s.setMark x).now = s.now := rfl
@[simp] theorem State.setMark_resetEnd (x : MarkUnit) : (s.setMark x).resetEnd = s.resetEnd := rfl
@[simp] theorem State.setMark_straps (x : MarkUnit) : (s.setMark x).straps = s.straps := rfl
@[simp] theorem State.setMark_resetHeld (x : MarkUnit) : (s.setMark x).resetHeld = s.resetHeld := rfl
@[simp] theorem State.setMark_cycle (x : MarkUnit) : (s.setMark x).cycle = s.cycle := rfl
@[simp] theorem State.setMark_axis (x : MarkUnit) : (s.setMark x).axis = s.axis := rfl
@[simp] theorem State.setMark_drive (x : MarkUnit) : (s.setMark x).drive = s.drive := rfl
@[simp] theorem State.setMark_trip (x : MarkUnit) : (s.setMark x).trip = s.trip := rfl
@[simp] theorem State.setMark_image (x : MarkUnit) : (s.setMark x).image = s.image := rfl
@[simp] theorem State.setMark_mark (x : MarkUnit) : (s.setMark x).mark = x := rfl
@[simp] theorem State.setMark_console (x : MarkUnit) : (s.setMark x).console = s.console := rfl
@[simp] theorem State.setMark_forward (x : MarkUnit) : (s.setMark x).forward = s.forward := rfl
@[simp] theorem State.setMark_election (x : MarkUnit) : (s.setMark x).election = s.election := rfl
@[simp] theorem State.setMark_portA (x : MarkUnit) : (s.setMark x).portA = s.portA := rfl
@[simp] theorem State.setMark_portB (x : MarkUnit) : (s.setMark x).portB = s.portB := rfl
@[simp] theorem State.setMark_agent (x : MarkUnit) : (s.setMark x).agent = s.agent := rfl
@[simp] theorem State.setMark_pending (x : MarkUnit) : (s.setMark x).pending = s.pending := rfl
@[simp] theorem State.setMark_port (x : MarkUnit) (p : PortId) : (s.setMark x).port p = s.port p := by cases p <;> rfl
@[simp] theorem State.setMark_self : s.setMark s.mark = s := rfl
@[simp] theorem State.setMark_again (x y : MarkUnit) : (s.setMark x).setMark y = s.setMark y := rfl

/-! ### setConsole -/

@[simp] theorem State.setConsole_now (x : ConsoleUnit) : (s.setConsole x).now = s.now := rfl
@[simp] theorem State.setConsole_resetEnd (x : ConsoleUnit) : (s.setConsole x).resetEnd = s.resetEnd := rfl
@[simp] theorem State.setConsole_straps (x : ConsoleUnit) : (s.setConsole x).straps = s.straps := rfl
@[simp] theorem State.setConsole_resetHeld (x : ConsoleUnit) : (s.setConsole x).resetHeld = s.resetHeld := rfl
@[simp] theorem State.setConsole_cycle (x : ConsoleUnit) : (s.setConsole x).cycle = s.cycle := rfl
@[simp] theorem State.setConsole_axis (x : ConsoleUnit) : (s.setConsole x).axis = s.axis := rfl
@[simp] theorem State.setConsole_drive (x : ConsoleUnit) : (s.setConsole x).drive = s.drive := rfl
@[simp] theorem State.setConsole_trip (x : ConsoleUnit) : (s.setConsole x).trip = s.trip := rfl
@[simp] theorem State.setConsole_image (x : ConsoleUnit) : (s.setConsole x).image = s.image := rfl
@[simp] theorem State.setConsole_mark (x : ConsoleUnit) : (s.setConsole x).mark = s.mark := rfl
@[simp] theorem State.setConsole_console (x : ConsoleUnit) : (s.setConsole x).console = x := rfl
@[simp] theorem State.setConsole_forward (x : ConsoleUnit) : (s.setConsole x).forward = s.forward := rfl
@[simp] theorem State.setConsole_election (x : ConsoleUnit) : (s.setConsole x).election = s.election := rfl
@[simp] theorem State.setConsole_portA (x : ConsoleUnit) : (s.setConsole x).portA = s.portA := rfl
@[simp] theorem State.setConsole_portB (x : ConsoleUnit) : (s.setConsole x).portB = s.portB := rfl
@[simp] theorem State.setConsole_agent (x : ConsoleUnit) : (s.setConsole x).agent = s.agent := rfl
@[simp] theorem State.setConsole_pending (x : ConsoleUnit) : (s.setConsole x).pending = s.pending := rfl
@[simp] theorem State.setConsole_port (x : ConsoleUnit) (p : PortId) : (s.setConsole x).port p = s.port p := by cases p <;> rfl
@[simp] theorem State.setConsole_self : s.setConsole s.console = s := rfl
@[simp] theorem State.setConsole_again (x y : ConsoleUnit) : (s.setConsole x).setConsole y = s.setConsole y := rfl

/-! ### setForward -/

@[simp] theorem State.setForward_now (x : ForwardUnit) : (s.setForward x).now = s.now := rfl
@[simp] theorem State.setForward_resetEnd (x : ForwardUnit) : (s.setForward x).resetEnd = s.resetEnd := rfl
@[simp] theorem State.setForward_straps (x : ForwardUnit) : (s.setForward x).straps = s.straps := rfl
@[simp] theorem State.setForward_resetHeld (x : ForwardUnit) : (s.setForward x).resetHeld = s.resetHeld := rfl
@[simp] theorem State.setForward_cycle (x : ForwardUnit) : (s.setForward x).cycle = s.cycle := rfl
@[simp] theorem State.setForward_axis (x : ForwardUnit) : (s.setForward x).axis = s.axis := rfl
@[simp] theorem State.setForward_drive (x : ForwardUnit) : (s.setForward x).drive = s.drive := rfl
@[simp] theorem State.setForward_trip (x : ForwardUnit) : (s.setForward x).trip = s.trip := rfl
@[simp] theorem State.setForward_image (x : ForwardUnit) : (s.setForward x).image = s.image := rfl
@[simp] theorem State.setForward_mark (x : ForwardUnit) : (s.setForward x).mark = s.mark := rfl
@[simp] theorem State.setForward_console (x : ForwardUnit) : (s.setForward x).console = s.console := rfl
@[simp] theorem State.setForward_forward (x : ForwardUnit) : (s.setForward x).forward = x := rfl
@[simp] theorem State.setForward_election (x : ForwardUnit) : (s.setForward x).election = s.election := rfl
@[simp] theorem State.setForward_portA (x : ForwardUnit) : (s.setForward x).portA = s.portA := rfl
@[simp] theorem State.setForward_portB (x : ForwardUnit) : (s.setForward x).portB = s.portB := rfl
@[simp] theorem State.setForward_agent (x : ForwardUnit) : (s.setForward x).agent = s.agent := rfl
@[simp] theorem State.setForward_pending (x : ForwardUnit) : (s.setForward x).pending = s.pending := rfl
@[simp] theorem State.setForward_port (x : ForwardUnit) (p : PortId) : (s.setForward x).port p = s.port p := by cases p <;> rfl
@[simp] theorem State.setForward_self : s.setForward s.forward = s := rfl
@[simp] theorem State.setForward_again (x y : ForwardUnit) : (s.setForward x).setForward y = s.setForward y := rfl

/-! ### setElection -/

@[simp] theorem State.setElection_now (x : ElectionUnit) : (s.setElection x).now = s.now := rfl
@[simp] theorem State.setElection_resetEnd (x : ElectionUnit) : (s.setElection x).resetEnd = s.resetEnd := rfl
@[simp] theorem State.setElection_straps (x : ElectionUnit) : (s.setElection x).straps = s.straps := rfl
@[simp] theorem State.setElection_resetHeld (x : ElectionUnit) : (s.setElection x).resetHeld = s.resetHeld := rfl
@[simp] theorem State.setElection_cycle (x : ElectionUnit) : (s.setElection x).cycle = s.cycle := rfl
@[simp] theorem State.setElection_axis (x : ElectionUnit) : (s.setElection x).axis = s.axis := rfl
@[simp] theorem State.setElection_drive (x : ElectionUnit) : (s.setElection x).drive = s.drive := rfl
@[simp] theorem State.setElection_trip (x : ElectionUnit) : (s.setElection x).trip = s.trip := rfl
@[simp] theorem State.setElection_image (x : ElectionUnit) : (s.setElection x).image = s.image := rfl
@[simp] theorem State.setElection_mark (x : ElectionUnit) : (s.setElection x).mark = s.mark := rfl
@[simp] theorem State.setElection_console (x : ElectionUnit) : (s.setElection x).console = s.console := rfl
@[simp] theorem State.setElection_forward (x : ElectionUnit) : (s.setElection x).forward = s.forward := rfl
@[simp] theorem State.setElection_election (x : ElectionUnit) : (s.setElection x).election = x := rfl
@[simp] theorem State.setElection_portA (x : ElectionUnit) : (s.setElection x).portA = s.portA := rfl
@[simp] theorem State.setElection_portB (x : ElectionUnit) : (s.setElection x).portB = s.portB := rfl
@[simp] theorem State.setElection_agent (x : ElectionUnit) : (s.setElection x).agent = s.agent := rfl
@[simp] theorem State.setElection_pending (x : ElectionUnit) : (s.setElection x).pending = s.pending := rfl
@[simp] theorem State.setElection_port (x : ElectionUnit) (p : PortId) : (s.setElection x).port p = s.port p := by cases p <;> rfl
@[simp] theorem State.setElection_self : s.setElection s.election = s := rfl
@[simp] theorem State.setElection_again (x y : ElectionUnit) : (s.setElection x).setElection y = s.setElection y := rfl

/-! ### setAgent -/

@[simp] theorem State.setAgent_now (x : Agent) : (s.setAgent x).now = s.now := rfl
@[simp] theorem State.setAgent_resetEnd (x : Agent) : (s.setAgent x).resetEnd = s.resetEnd := rfl
@[simp] theorem State.setAgent_straps (x : Agent) : (s.setAgent x).straps = s.straps := rfl
@[simp] theorem State.setAgent_resetHeld (x : Agent) : (s.setAgent x).resetHeld = s.resetHeld := rfl
@[simp] theorem State.setAgent_cycle (x : Agent) : (s.setAgent x).cycle = s.cycle := rfl
@[simp] theorem State.setAgent_axis (x : Agent) : (s.setAgent x).axis = s.axis := rfl
@[simp] theorem State.setAgent_drive (x : Agent) : (s.setAgent x).drive = s.drive := rfl
@[simp] theorem State.setAgent_trip (x : Agent) : (s.setAgent x).trip = s.trip := rfl
@[simp] theorem State.setAgent_image (x : Agent) : (s.setAgent x).image = s.image := rfl
@[simp] theorem State.setAgent_mark (x : Agent) : (s.setAgent x).mark = s.mark := rfl
@[simp] theorem State.setAgent_console (x : Agent) : (s.setAgent x).console = s.console := rfl
@[simp] theorem State.setAgent_forward (x : Agent) : (s.setAgent x).forward = s.forward := rfl
@[simp] theorem State.setAgent_election (x : Agent) : (s.setAgent x).election = s.election := rfl
@[simp] theorem State.setAgent_portA (x : Agent) : (s.setAgent x).portA = s.portA := rfl
@[simp] theorem State.setAgent_portB (x : Agent) : (s.setAgent x).portB = s.portB := rfl
@[simp] theorem State.setAgent_agent (x : Agent) : (s.setAgent x).agent = x := rfl
@[simp] theorem State.setAgent_pending (x : Agent) : (s.setAgent x).pending = s.pending := rfl
@[simp] theorem State.setAgent_port (x : Agent) (p : PortId) : (s.setAgent x).port p = s.port p := by cases p <;> rfl
@[simp] theorem State.setAgent_self : s.setAgent s.agent = s := rfl
@[simp] theorem State.setAgent_again (x y : Agent) : (s.setAgent x).setAgent y = s.setAgent y := rfl

/-! ### setPort -/

@[simp] theorem State.setPort_now (p : PortId) (x : FibrePort) : (s.setPort p x).now = s.now := by cases p <;> rfl
@[simp] theorem State.setPort_resetEnd (p : PortId) (x : FibrePort) : (s.setPort p x).resetEnd = s.resetEnd := by cases p <;> rfl
@[simp] theorem State.setPort_straps (p : PortId) (x : FibrePort) : (s.setPort p x).straps = s.straps := by cases p <;> rfl
@[simp] theorem State.setPort_resetHeld (p : PortId) (x : FibrePort) : (s.setPort p x).resetHeld = s.resetHeld := by cases p <;> rfl
@[simp] theorem State.setPort_cycle (p : PortId) (x : FibrePort) : (s.setPort p x).cycle = s.cycle := by cases p <;> rfl
@[simp] theorem State.setPort_axis (p : PortId) (x : FibrePort) : (s.setPort p x).axis = s.axis := by cases p <;> rfl
@[simp] theorem State.setPort_drive (p : PortId) (x : FibrePort) : (s.setPort p x).drive = s.drive := by cases p <;> rfl
@[simp] theorem State.setPort_trip (p : PortId) (x : FibrePort) : (s.setPort p x).trip = s.trip := by cases p <;> rfl
@[simp] theorem State.setPort_image (p : PortId) (x : FibrePort) : (s.setPort p x).image = s.image := by cases p <;> rfl
@[simp] theorem State.setPort_mark (p : PortId) (x : FibrePort) : (s.setPort p x).mark = s.mark := by cases p <;> rfl
@[simp] theorem State.setPort_console (p : PortId) (x : FibrePort) : (s.setPort p x).console = s.console := by cases p <;> rfl
@[simp] theorem State.setPort_forward (p : PortId) (x : FibrePort) : (s.setPort p x).forward = s.forward := by cases p <;> rfl
@[simp] theorem State.setPort_election (p : PortId) (x : FibrePort) : (s.setPort p x).election = s.election := by cases p <;> rfl
@[simp] theorem State.setPort_agent (p : PortId) (x : FibrePort) : (s.setPort p x).agent = s.agent := by cases p <;> rfl
@[simp] theorem State.setPort_pending (p : PortId) (x : FibrePort) : (s.setPort p x).pending = s.pending := by cases p <;> rfl
@[simp] theorem State.setPort_port_same (p : PortId) (x : FibrePort) : (s.setPort p x).port p = x := by cases p <;> rfl
theorem State.setPort_port_other (p q : PortId) (x : FibrePort) (h : q ≠ p) : (s.setPort p x).port q = s.port q := by
  cases p <;> cases q <;> first | rfl | exact absurd rfl h
@[simp] theorem State.setPort_self (p : PortId) : s.setPort p (s.port p) = s := by cases p <;> rfl

/-! ### The clock and the queue of waiting commands -/

@[simp] theorem State.elapse_now (d : Nat) : (s.elapse d).now = s.now + d := rfl
@[simp] theorem State.elapse_resetEnd (d : Nat) : (s.elapse d).resetEnd = s.resetEnd := rfl
@[simp] theorem State.elapse_straps (d : Nat) : (s.elapse d).straps = s.straps := rfl
@[simp] theorem State.elapse_resetHeld (d : Nat) : (s.elapse d).resetHeld = s.resetHeld := rfl
@[simp] theorem State.elapse_cycle (d : Nat) : (s.elapse d).cycle = s.cycle := rfl
@[simp] theorem State.elapse_axis (d : Nat) : (s.elapse d).axis = s.axis := rfl
@[simp] theorem State.elapse_drive (d : Nat) : (s.elapse d).drive = s.drive := rfl
@[simp] theorem State.elapse_trip (d : Nat) : (s.elapse d).trip = s.trip := rfl
@[simp] theorem State.elapse_image (d : Nat) : (s.elapse d).image = s.image := rfl
@[simp] theorem State.elapse_mark (d : Nat) : (s.elapse d).mark = s.mark := rfl
@[simp] theorem State.elapse_console (d : Nat) : (s.elapse d).console = s.console := rfl
@[simp] theorem State.elapse_forward (d : Nat) : (s.elapse d).forward = s.forward := rfl
@[simp] theorem State.elapse_election (d : Nat) : (s.elapse d).election = s.election := rfl
@[simp] theorem State.elapse_portA (d : Nat) : (s.elapse d).portA = s.portA := rfl
@[simp] theorem State.elapse_portB (d : Nat) : (s.elapse d).portB = s.portB := rfl
@[simp] theorem State.elapse_agent (d : Nat) : (s.elapse d).agent = s.agent := rfl
@[simp] theorem State.elapse_pending (d : Nat) : (s.elapse d).pending = s.pending := rfl
@[simp] theorem State.elapse_port (d : Nat) (p : PortId) : (s.elapse d).port p = s.port p := by cases p <;> rfl
@[simp] theorem State.reach_now (d : Time) : (s.reach d).now = max s.now d := rfl
@[simp] theorem State.reach_resetEnd (d : Time) : (s.reach d).resetEnd = s.resetEnd := rfl
@[simp] theorem State.reach_straps (d : Time) : (s.reach d).straps = s.straps := rfl
@[simp] theorem State.reach_resetHeld (d : Time) : (s.reach d).resetHeld = s.resetHeld := rfl
@[simp] theorem State.reach_cycle (d : Time) : (s.reach d).cycle = s.cycle := rfl
@[simp] theorem State.reach_axis (d : Time) : (s.reach d).axis = s.axis := rfl
@[simp] theorem State.reach_drive (d : Time) : (s.reach d).drive = s.drive := rfl
@[simp] theorem State.reach_trip (d : Time) : (s.reach d).trip = s.trip := rfl
@[simp] theorem State.reach_image (d : Time) : (s.reach d).image = s.image := rfl
@[simp] theorem State.reach_mark (d : Time) : (s.reach d).mark = s.mark := rfl
@[simp] theorem State.reach_console (d : Time) : (s.reach d).console = s.console := rfl
@[simp] theorem State.reach_forward (d : Time) : (s.reach d).forward = s.forward := rfl
@[simp] theorem State.reach_election (d : Time) : (s.reach d).election = s.election := rfl
@[simp] theorem State.reach_portA (d : Time) : (s.reach d).portA = s.portA := rfl
@[simp] theorem State.reach_portB (d : Time) : (s.reach d).portB = s.portB := rfl
@[simp] theorem State.reach_agent (d : Time) : (s.reach d).agent = s.agent := rfl
@[simp] theorem State.reach_pending (d : Time) : (s.reach d).pending = s.pending := rfl
@[simp] theorem State.reach_port (d : Time) (p : PortId) : (s.reach d).port p = s.port p := by cases p <;> rfl
@[simp] theorem State.withPending_now (l : List Instr) : (s.withPending l).now = s.now := rfl
@[simp] theorem State.withPending_resetEnd (l : List Instr) : (s.withPending l).resetEnd = s.resetEnd := rfl
@[simp] theorem State.withPending_straps (l : List Instr) : (s.withPending l).straps = s.straps := rfl
@[simp] theorem State.withPending_resetHeld (l : List Instr) : (s.withPending l).resetHeld = s.resetHeld := rfl
@[simp] theorem State.withPending_cycle (l : List Instr) : (s.withPending l).cycle = s.cycle := rfl
@[simp] theorem State.withPending_axis (l : List Instr) : (s.withPending l).axis = s.axis := rfl
@[simp] theorem State.withPending_drive (l : List Instr) : (s.withPending l).drive = s.drive := rfl
@[simp] theorem State.withPending_trip (l : List Instr) : (s.withPending l).trip = s.trip := rfl
@[simp] theorem State.withPending_image (l : List Instr) : (s.withPending l).image = s.image := rfl
@[simp] theorem State.withPending_mark (l : List Instr) : (s.withPending l).mark = s.mark := rfl
@[simp] theorem State.withPending_console (l : List Instr) : (s.withPending l).console = s.console := rfl
@[simp] theorem State.withPending_forward (l : List Instr) : (s.withPending l).forward = s.forward := rfl
@[simp] theorem State.withPending_election (l : List Instr) : (s.withPending l).election = s.election := rfl
@[simp] theorem State.withPending_portA (l : List Instr) : (s.withPending l).portA = s.portA := rfl
@[simp] theorem State.withPending_portB (l : List Instr) : (s.withPending l).portB = s.portB := rfl
@[simp] theorem State.withPending_agent (l : List Instr) : (s.withPending l).agent = s.agent := rfl
@[simp] theorem State.withPending_pending (l : List Instr) : (s.withPending l).pending = l := rfl
@[simp] theorem State.withPending_port (l : List Instr) (p : PortId) : (s.withPending l).port p = s.port p := by
  cases p <;> rfl

/-! ### What a block's update leaves of the node's address -/

@[simp] theorem State.setCycle_hasAddress (x : CycleUnit) : (s.setCycle x).hasAddress = s.hasAddress := rfl
@[simp] theorem State.setCycle_address (x : CycleUnit) : (s.setCycle x).address = s.address := rfl
@[simp] theorem State.setCycle_addressByte (x : CycleUnit) : (s.setCycle x).addressByte = s.addressByte := rfl
@[simp] theorem State.setAxis_hasAddress (x : AxisUnit) : (s.setAxis x).hasAddress = s.hasAddress := rfl
@[simp] theorem State.setAxis_address (x : AxisUnit) : (s.setAxis x).address = s.address := rfl
@[simp] theorem State.setAxis_addressByte (x : AxisUnit) : (s.setAxis x).addressByte = s.addressByte := rfl
@[simp] theorem State.setDrive_hasAddress (x : DriveLink) : (s.setDrive x).hasAddress = s.hasAddress := rfl
@[simp] theorem State.setDrive_address (x : DriveLink) : (s.setDrive x).address = s.address := rfl
@[simp] theorem State.setDrive_addressByte (x : DriveLink) : (s.setDrive x).addressByte = s.addressByte := rfl
@[simp] theorem State.setTrip_hasAddress (x : TripUnit) : (s.setTrip x).hasAddress = s.hasAddress := rfl
@[simp] theorem State.setTrip_address (x : TripUnit) : (s.setTrip x).address = s.address := rfl
@[simp] theorem State.setTrip_addressByte (x : TripUnit) : (s.setTrip x).addressByte = s.addressByte := rfl
@[simp] theorem State.setImage_hasAddress (x : ImageUnit) : (s.setImage x).hasAddress = s.hasAddress := rfl
@[simp] theorem State.setImage_address (x : ImageUnit) : (s.setImage x).address = s.address := rfl
@[simp] theorem State.setImage_addressByte (x : ImageUnit) : (s.setImage x).addressByte = s.addressByte := rfl
@[simp] theorem State.setMark_hasAddress (x : MarkUnit) : (s.setMark x).hasAddress = s.hasAddress := rfl
@[simp] theorem State.setMark_address (x : MarkUnit) : (s.setMark x).address = s.address := rfl
@[simp] theorem State.setMark_addressByte (x : MarkUnit) : (s.setMark x).addressByte = s.addressByte := rfl
@[simp] theorem State.setConsole_hasAddress (x : ConsoleUnit) : (s.setConsole x).hasAddress = s.hasAddress := rfl
@[simp] theorem State.setConsole_address (x : ConsoleUnit) : (s.setConsole x).address = s.address := rfl
@[simp] theorem State.setConsole_addressByte (x : ConsoleUnit) : (s.setConsole x).addressByte = s.addressByte := rfl
@[simp] theorem State.setForward_hasAddress (x : ForwardUnit) : (s.setForward x).hasAddress = s.hasAddress := rfl
@[simp] theorem State.setForward_address (x : ForwardUnit) : (s.setForward x).address = s.address := rfl
@[simp] theorem State.setForward_addressByte (x : ForwardUnit) : (s.setForward x).addressByte = s.addressByte := rfl
@[simp] theorem State.setElection_hasAddress (x : ElectionUnit) : (s.setElection x).hasAddress = s.hasAddress := rfl
@[simp] theorem State.setElection_address (x : ElectionUnit) : (s.setElection x).address = s.address := rfl
@[simp] theorem State.setElection_addressByte (x : ElectionUnit) : (s.setElection x).addressByte = s.addressByte := rfl
@[simp] theorem State.setAgent_hasAddress (x : Agent) : (s.setAgent x).hasAddress = s.hasAddress := rfl
@[simp] theorem State.setAgent_address (x : Agent) : (s.setAgent x).address = s.address := rfl
@[simp] theorem State.setAgent_addressByte (x : Agent) : (s.setAgent x).addressByte = s.addressByte := rfl
@[simp] theorem State.setPort_hasAddress (p : PortId) (x : FibrePort) : (s.setPort p x).hasAddress = s.hasAddress := by
  cases p <;> rfl
@[simp] theorem State.elapse_hasAddress (d : Nat) : (s.elapse d).hasAddress = s.hasAddress := rfl
@[simp] theorem State.reach_hasAddress (d : Time) : (s.reach d).hasAddress = s.hasAddress := rfl

end Setters

end Sys2Proof.Machine
end

