-- ==== Sys2Proof/Laws/Ops.lean ====
section
/-!
SUPPORT. What the shared operations on tables, counters, bounded steps, line memory and bytes can do, said once each.
-/
namespace Sys2Proof

/-! ### Tables -/

section Tables
variable {α : Type} {n : Nat}

@[simp] theorem Table.get?_set_same (t : Table α n) (i : Nat) (a : α) (h : i < n) : (t.set i a).get? i = some a := by
  have hl : i < t.list.length := by rw [t.size]; exact h
  simp [Table.get?, Table.set, hl]

theorem Table.get?_set_other (t : Table α n) (i j : Nat) (a : α) (h : j ≠ i) : (t.set i a).get? j = t.get? j := by
  simp [Table.get?, Table.set, Ne.symm h]

@[simp] theorem Table.getD_set_same (t : Table α n) (i : Nat) (a d : α) (h : i < n) : (t.set i a).getD i d = a := by
  have hl : i < t.list.length := by rw [t.size]; exact h
  simp [Table.getD, Table.set, List.getD_eq_getElem?_getD, hl]

theorem Table.getD_set_other (t : Table α n) (i j : Nat) (a d : α) (h : j ≠ i) : (t.set i a).getD j d = t.getD j d := by
  simp [Table.getD, Table.set, List.getD_eq_getElem?_getD, Ne.symm h]

theorem Table.getD_eq_get? (t : Table α n) (i : Nat) (d : α) : t.getD i d = (t.get? i).getD d := by
  simp [Table.getD, Table.get?, List.getD_eq_getElem?_getD]

theorem Table.get?_of_lt (t : Table α n) (i : Nat) (d : α) (h : i < n) : t.get? i = some (t.getD i d) := by
  have hl : i < t.list.length := by rw [t.size]; exact h
  simp [Table.getD, Table.get?, List.getD_eq_getElem?_getD, hl]

theorem Table.get?_of_ge (t : Table α n) (i : Nat) (h : n ≤ i) : t.get? i = none := by
  have hl : t.list.length ≤ i := by rw [t.size]; exact h
  simp [Table.get?, hl]

theorem Table.modify_eq_set (t : Table α n) (i : Nat) (f : α → α) (d : α) (h : i < n) :
    t.modify i f = t.set i (f (t.getD i d)) := by
  simp [Table.modify, Table.get?_of_lt t i d h]

theorem Table.get?_modify_other (t : Table α n) (i j : Nat) (f : α → α) (h : j ≠ i) :
    (t.modify i f).get? j = t.get? j := by
  unfold Table.modify
  split
  · exact Table.get?_set_other t i j _ h
  · rfl

@[simp] theorem Table.get?_map {β : Type} (f : α → β) (t : Table α n) (i : Nat) :
    (Table.map f t).get? i = (t.get? i).map f := by
  simp [Table.get?, Table.map]

@[simp] theorem Table.get?_mapIdx {β : Type} (f : Nat → α → β) (t : Table α n) (i : Nat) :
    (Table.mapIdx f t).get? i = (t.get? i).map (f i) := by
  simp [Table.get?, Table.mapIdx]

theorem Table.ext_list (a b : Table α n) (h : a.list = b.list) : a = b := by
  cases a; cases b; cases h; rfl

/-- Every entry after a write is the one written or one that was there. -/
theorem Table.mem_set (t : Table α n) (i : Nat) (a x : α) (h : x ∈ (t.set i a).list) : x = a ∨ x ∈ t.list := by
  rcases List.mem_or_eq_of_mem_set h with h | h
  · exact .inr h
  · exact .inl h

theorem Table.getD_mem (t : Table α n) (i : Nat) (d : α) (h : i < n) : t.getD i d ∈ t.list := by
  have hl : i < t.list.length := by rw [t.size]; exact h
  simp [Table.getD, List.getD_eq_getElem?_getD, hl]

end Tables

/-! ### Sets of marks -/

theorem getLsbD_marksBelow (n : Nat) (p : Nat → Bool) (k i : Nat) (hk : k ≤ n) :
    (marksBelow n p k).getLsbD i = (decide (i < k) && p i) := by
  induction k with
  | zero => simp [marksBelow]
  | succ k ih =>
    have ih := ih (by omega)
    have hkn : k < n := by omega
    have hlt : decide (i < k + 1) = (decide (i < k) || decide (k = i)) := by
      rw [← Bool.decide_or]; exact decide_eq_decide.mpr (by omega)
    have hs : marksBelow n p (k + 1) = if p k then marksBelow n p k ||| BitVec.twoPow n k else marksBelow n p k := rfl
    rw [hs, hlt]
    by_cases hp : p k = true
    · rw [if_pos hp, BitVec.getLsbD_or, ih, BitVec.getLsbD_twoPow]
      by_cases hik : k = i
      · subst hik; simp [hp, hkn]
      · simp [hik]
    · rw [if_neg hp, ih]
      by_cases hik : k = i
      · subst hik; simp [hp]
      · simp [hik]

@[simp] theorem getLsbD_marksWhere (n : Nat) (p : Nat → Bool) (i : Nat) :
    (marksWhere n p).getLsbD i = (decide (i < n) && p i) := getLsbD_marksBelow n p n i (Nat.le_refl n)

/-! ### Counters and bounded steps -/

theorem bump_eq (c : Nat) (h : c < 4294967295) : bump c = c + 1 := by unfold bump bumpBy; omega

theorem bump_le (c : Nat) : bump c ≤ 4294967295 := by unfold bump bumpBy; omega

theorem clampMag_bounds (m : Nat) (x : Int) : -(m : Int) ≤ clampMag m x ∧ clampMag m x ≤ (m : Int) := by
  unfold clampMag clamp; omega

theorem clampMag_natAbs (m : Nat) (x : Int) : (clampMag m x).natAbs ≤ m := by
  have := clampMag_bounds m x; omega

theorem clampMag_of_le (m : Nat) (x : Int) (h : x.natAbs ≤ m) : clampMag m x = x := by
  unfold clampMag clamp; omega

/-- A bounded step ends at the goal or `rate` nearer to it, and moves by at most `rate`. -/
theorem approach_spec (x goal : Int) (rate : Nat) :
    ((goal - x).natAbs ≤ rate → approach x goal rate = goal) ∧
    ((goal - x).natAbs > rate → (approach x goal rate - x).natAbs = rate ∧
      (goal - approach x goal rate).natAbs = (goal - x).natAbs - rate) := by
  unfold approach
  constructor
  · intro h; simp [h]
  · intro h
    have h1 : ¬ (goal - x).natAbs ≤ rate := by omega
    simp only [h1, if_false]
    split <;> omega

theorem approach_step (x goal : Int) (rate : Nat) : (approach x goal rate - x).natAbs ≤ rate := by
  unfold approach; split
  · omega
  · split <;> omega

/-! ### Line memory -/

theorem Machine.Memory.read_nil (a : Nat) : Machine.Memory.read [] a = 0 := rfl

theorem Machine.Memory.cells_bounds (a : Nat) (data : List Byte) :
    ∀ c ∈ Machine.Memory.cells a data, a ≤ c.1 ∧ c.1 < a + data.length ∧ c.2 ≠ 0 ∧ c.1 < memoryBytes := by
  induction data generalizing a with
  | nil => intro c h; cases h
  | cons b rest ih =>
    intro c h
    unfold Machine.Memory.cells at h
    split at h
    · have := ih (a + 1) c h
      simp only [List.length_cons]; exact ⟨by omega, by omega, this.2.2⟩
    · rename_i hb
      simp only [Bool.or_eq_true, decide_eq_true_eq, not_or, Nat.not_le] at hb
      rcases List.mem_cons.mp h with h | h
      · subst h; simp only [List.length_cons]; exact ⟨by omega, by omega, hb.1, hb.2⟩
      · have := ih (a + 1) c h
        simp only [List.length_cons]; exact ⟨by omega, by omega, this.2.2⟩

theorem Machine.Memory.cells_pairwise (a : Nat) (data : List Byte) :
    (Machine.Memory.cells a data).Pairwise (fun c d => c.1 < d.1) := by
  induction data generalizing a with
  | nil => exact List.Pairwise.nil
  | cons b rest ih =>
    unfold Machine.Memory.cells
    split
    · exact ih (a + 1)
    · refine List.Pairwise.cons ?_ (ih (a + 1))
      intro c h
      have := Machine.Memory.cells_bounds (a + 1) rest c h
      change a < c.1
      omega

/-- Storing bytes keeps the canonical form of line memory. -/
theorem Machine.Memory.write_wf (m : Machine.Memory) (a : Nat) (data : List Byte) (h : Machine.Memory.wf m) :
    Machine.Memory.wf (m.write a data) := by
  obtain ⟨hp, hz⟩ := h
  unfold Machine.Memory.write
  refine ⟨?_, ?_⟩
  · refine List.pairwise_append.mpr ⟨List.pairwise_append.mpr ⟨hp.filter _, Machine.Memory.cells_pairwise a data, ?_⟩,
      hp.filter _, ?_⟩
    · intro c hc d hd
      have h1 : c.1 < a := by simpa using (List.mem_filter.mp hc).2
      have h2 := Machine.Memory.cells_bounds a data d hd
      omega
    · intro c hc d hd
      have h2 : a + data.length ≤ d.1 := by simpa using (List.mem_filter.mp hd).2
      rcases List.mem_append.mp hc with hc | hc
      · have h1 : c.1 < a := by simpa using (List.mem_filter.mp hc).2
        omega
      · have h1 := Machine.Memory.cells_bounds a data c hc
        omega
  · intro c hc
    rcases List.mem_append.mp hc with hc | hc
    · rcases List.mem_append.mp hc with hc | hc
      · exact hz c (List.mem_filter.mp hc).1
      · exact (Machine.Memory.cells_bounds a data c hc).2.2
    · exact hz c (List.mem_filter.mp hc).1

/-- The line memory of the reset state is in its canonical form. -/
theorem Machine.Memory.reset_wf : Machine.Memory.wf Machine.State.reset.image.memory :=
  ⟨List.Pairwise.nil, fun _ h => by cases h⟩

/-! ### Slots as they are sent (R173) -/

@[simp] theorem Machine.slotSent_written {s : Slot} (h : Machine.slotWritten s = true) : Machine.slotSent s = s := if_pos h
@[simp] theorem Machine.slotSent_unwritten {s : Slot} (h : Machine.slotWritten s = false) : Machine.slotSent s = 0 := by
  simp [Machine.slotSent, h]
@[simp] theorem Machine.slotSent_empty : Machine.slotSent 0 = 0 := by decide

/-! ### Byte order -/

theorem length_beBytes (n x : Nat) : (Machine.beBytes n x).length = n := by
  induction n with
  | zero => rfl
  | succ n ih => simp [Machine.beBytes, ih]

/-- The bytes of a number spell it, modulo what the bytes hold. -/
theorem beNat_beBytes (n x : Nat) : Machine.beNat (Machine.beBytes n x) = x % 256 ^ n := by
  have key : ∀ (n a : Nat), (Machine.beBytes n x).foldl (fun a b => a * 256 + b.toNat) a = a * 256 ^ n + x % 256 ^ n := by
    intro n
    induction n with
    | zero => intro a; simp [Machine.beBytes, Nat.mod_one]
    | succ n ih =>
      intro a
      simp only [Machine.beBytes, List.foldl_cons, ih, BitVec.toNat_ofNat]
      have h1 : x % 256 ^ (n + 1) = x % 256 ^ n + 256 ^ n * (x / 256 ^ n % 256) := by
        rw [pow_succ, Nat.mod_mul]
      rw [h1, pow_succ]
      norm_num
      ring
  simpa [Machine.beNat] using key n 0

end Sys2Proof
end

