-- ==== Sys2Proof/Laws/Settle.lean ====
section
/-!
SUPPORT. What the end of a command can do: it keeps every block up to its `still` form. One lemma says so for each part of
`settle`, and `settle_keeps` for the whole.
-/
namespace Sys2Proof.Machine

/-! ### KeepsAllBut -/

theorem KeepsAllBut.refl (l : List Block) (s : State) : KeepsAllBut l s s :=
  ⟨fun b _ => by cases b <;> rfl, rfl, rfl, rfl, rfl⟩

theorem Block.same_trans (b : Block) (s t u : State) (h1 : b.same s t) (h2 : b.same t u) : b.same s u := by
  cases b <;> exact Eq.trans h2 h1

theorem KeepsAllBut.trans {l : List Block} {s t u : State} (h1 : KeepsAllBut l s t) (h2 : KeepsAllBut l t u) :
    KeepsAllBut l s u :=
  ⟨fun b hb => b.same_trans s t u (h1.1 b hb) (h2.1 b hb), h2.2.1.trans h1.2.1, h2.2.2.1.trans h1.2.2.1,
    h2.2.2.2.1.trans h1.2.2.2.1, h2.2.2.2.2.trans h1.2.2.2.2⟩

theorem KeepsAllBut.mono {l k : List Block} {s t : State} (h : KeepsAllBut l s t) (hlk : ∀ b ∈ l, b ∈ k) :
    KeepsAllBut k s t :=
  ⟨fun b hb => h.1 b (fun hm => hb (hlk b hm)), h.2⟩

/-- A block that is the same up to its `still` form. -/
theorem keeps_of_blocks {s t : State} (hc : t.cycle = s.cycle) (ha : t.axis = s.axis) (hd : t.drive = s.drive)
    (ht : t.trip.still = s.trip.still) (hi : t.image.still = s.image.still) (hm : t.mark = s.mark)
    (hco : t.console.still = s.console.still) (hf : t.forward.still = s.forward.still) (he : t.election = s.election)
    (hpa : t.portA.still = s.portA.still) (hpb : t.portB.still = s.portB.still) (hag : t.agent = s.agent)
    (hs : t.straps = s.straps) (hr : t.resetEnd = s.resetEnd) (hp : t.pending = s.pending)
    (hh : t.resetHeld = s.resetHeld) : KeepsAllBut [] s t := by
  refine ⟨fun b _ => ?_, hs, hr, hp, hh⟩
  cases b <;> assumption

/-! ### The parts of `settle` -/

theorem still_setCtx (u : ImageUnit) (i : Nat) (c : StreamContext) (h : c.still = (u.ctx i).still) :
    (u.setCtx i c).still = u.still := by
  have hl : (u.contexts.set i c).map StreamContext.still = u.contexts.map StreamContext.still := by
    apply Table.ext_list
    apply List.ext_getElem?
    intro j
    show ((u.contexts.list.set i c).map StreamContext.still)[j]? = (u.contexts.list.map StreamContext.still)[j]?
    rw [List.getElem?_map, List.getElem?_map, List.getElem?_set]
    by_cases hij : i = j
    · subst hij
      by_cases hlt : i < u.contexts.list.length
      · have hd : u.ctx i = u.contexts.list[i] := by
          simp [ImageUnit.ctx, Table.getD, List.getD_eq_getElem?_getD, hlt]
        simp [hlt, h, hd]
      · simp [hlt]
    · simp [hij]
  unfold ImageUnit.setCtx ImageUnit.still
  simp only [hl]

theorem placeFrame_image_keeps (s : State) (o : Owner) (k : FrameKind) (d : Byte) (x : Payload) :
    KeepsAllBut [] s (placeFrame s .image o k d x) := by
  refine keeps_of_blocks ?_ ?_ ?_ ?_ ?_ ?_ ?_ ?_ ?_ ?_ ?_ ?_ ?_ ?_ ?_ ?_ <;> try rfl
  unfold placeFrame ForwardUnit.place
  dsimp only [State.setForward]
  split <;> rfl

theorem placeSegment_keeps (s : State) (i : Nat) : KeepsAllBut [] s (placeSegment s i) := by
  unfold placeSegment
  dsimp only
  split
  · exact placeFrame_image_keeps _ _ _ _ _
  · exact KeepsAllBut.refl _ _

theorem segmentHanded_keeps (s : State) (i : Nat) : KeepsAllBut [] s (segmentHanded s i) := by
  refine keeps_of_blocks rfl rfl rfl rfl ?_ rfl rfl rfl rfl rfl rfl rfl rfl rfl rfl rfl
  unfold segmentHanded
  dsimp only [setCtx, State.setImage_image]
  apply still_setCtx
  split <;> rfl

theorem handedOver_keeps (s : State) (o : Owner) : KeepsAllBut [] s (handedOver s o) := by
  cases o with
  | segment i => exact (segmentHanded_keeps s i).trans (placeSegment_keeps _ i)
  | _ => exact KeepsAllBut.refl _ _

theorem setPort_keeps (s : State) (p : PortId) (x : FibrePort) (h : x.still = (s.port p).still) :
    KeepsAllBut [] s (s.setPort p x) := by
  cases p
  · exact keeps_of_blocks rfl rfl rfl rfl rfl rfl rfl rfl rfl h rfl rfl rfl rfl rfl rfl
  · exact keeps_of_blocks rfl rfl rfl rfl rfl rfl rfl rfl rfl rfl h rfl rfl rfl rfl rfl

theorem setForward_keeps (s : State) (f : ForwardUnit) (h : f.still = s.forward.still) :
    KeepsAllBut [] s (s.setForward f) :=
  keeps_of_blocks rfl rfl rfl rfl rfl rfl rfl h rfl rfl rfl rfl rfl rfl rfl rfl

/-- The forwarding unit that a choice of a class frame leaves. -/
def ClassChoice.unit : ClassChoice → ForwardUnit
  | .nothing f => f
  | .start _ f => f

theorem holdBack_still (f : ForwardUnit) : f.holdBack.still = f.still := by
  unfold ForwardUnit.holdBack; split <;> rfl

theorem tryClass_still (f : ForwardUnit) (now : Time) (r : Rate) (c : FrameClass) (next : ForwardUnit → ClassChoice)
    (h : ∀ g : ForwardUnit, g.still = f.still → (next g).unit.still = f.still) :
    (f.tryClass now r c next).unit.still = f.still := by
  unfold ForwardUnit.tryClass
  split
  · exact h f rfl
  · split
    · split
      · cases c <;> rfl
      · exact h _ (holdBack_still f)
    · exact h f rfl

theorem chooseClass_still (f : ForwardUnit) (now : Time) (r : Rate) : (f.chooseClass now r).unit.still = f.still := by
  unfold ForwardUnit.chooseClass
  refine tryClass_still _ _ _ _ _ fun g hg => ?_
  rw [← hg]
  refine tryClass_still _ _ _ _ _ fun g' hg' => ?_
  rw [← hg']
  exact tryClass_still _ _ _ _ _ fun g'' hg'' => hg''

theorem startClass_keeps (s : State) (p : PortId) : KeepsAllBut [] s (startClass s p) := by
  have h := chooseClass_still s.forward s.now (s.port p).link.rate
  unfold startClass
  split
  · rename_i f hf; rw [hf] at h; exact setForward_keeps s f h
  · rename_i e f hf
    rw [hf] at h
    refine (setForward_keeps s f h).trans (KeepsAllBut.trans ?_ (handedOver_keeps _ _))
    exact setPort_keeps _ _ _ (by rw [State.setForward_port]; rfl)

theorem choosePort_keeps (s : State) (p : PortId) : KeepsAllBut [] s (choosePort s p) := by
  unfold choosePort
  dsimp only
  split
  · exact KeepsAllBut.refl _ _
  · split
    · exact setPort_keeps _ _ _ rfl
    · split
      · exact setPort_keeps _ _ _ rfl
      · split
        · exact setPort_keeps _ _ _ rfl
        · split
          · exact startClass_keeps _ _
          · exact KeepsAllBut.refl _ _

/-- A frame chosen now comes onto the line no earlier. -/
theorem FibrePort.le_lineFree (p : FibrePort) (now : Time) : now ≤ p.lineFree now := Nat.le_max_left _ _

/-- Where the identity record of the entry to UP is over, a chosen frame comes onto the line at once (R187). -/
theorem FibrePort.lineFree_eq {p : FibrePort} {now : Time} (h : ∀ x, p.link.identity = some x → x + identityTime p.link.rate ≤ now) :
    p.lineFree now = now := by
  unfold FibrePort.lineFree
  split
  · next x hx => exact Nat.max_eq_left (h x hx)
  · exact Nat.max_eq_left (Nat.zero_le _)

/-- All that the arbiter can do (R136): nothing, or the start of a delivery of the context whose turn it is. -/
theorem arbitrate_cases (u : ImageUnit) (now : Time) :
    u.arbitrate now = u ∨ ∃ i, u.direction = .deliver ∧ u.delivery = none ∧ u.nextServed = some i ∧ u.arbitrate now = { u with
      delivery := some ⟨i, u.linesFree now, u.linesFree now + 20 * (u.deliveryWords i).length⟩, lastServed := i } := by
  unfold ImageUnit.arbitrate
  split
  · next h =>
    rw [Bool.and_eq_true, decide_eq_true_eq, Option.isNone_iff_eq_none] at h
    split
    · next i hi => exact .inr ⟨i, h.1, h.2, hi, rfl⟩
    · exact .inl rfl
  · exact .inl rfl

/-- Where a delivery whose first word has begun is aborted, its word then on the lines ends within 20 ns, a whole number of words after
the first one began (R135, R137). -/
theorem Delivery.wordEnd_some {d : Delivery} {now : Time} (h : d.begins ≤ now) :
    ∃ x, d.wordEnd now = some x ∧ now < x ∧ x ≤ now + 20 ∧ (x - d.begins) % 20 = 0 := by
  have key : ∀ b m : Nat, b ≤ m → m < b + 20 * ((m - b) / 20 + 1) ∧ b + 20 * ((m - b) / 20 + 1) ≤ m + 20 ∧
      (b + 20 * ((m - b) / 20 + 1) - b) % 20 = 0 := by omega
  exact ⟨_, if_pos h, key _ _ h⟩

/-- A delivery whose first word is still to come has no word on the lines. -/
theorem Delivery.wordEnd_none {d : Delivery} {now : Time} (h : now < d.begins) : d.wordEnd now = none :=
  if_neg (Nat.not_le.mpr h)

theorem arbitrate_still (u : ImageUnit) (now : Time) : (u.arbitrate now).still = u.still := by
  rcases arbitrate_cases u now with h | ⟨_, _, _, _, h⟩ <;> rw [h]
  rfl

theorem setImage_keeps (s : State) (u : ImageUnit) (h : u.still = s.image.still) : KeepsAllBut [] s (s.setImage u) :=
  keeps_of_blocks rfl rfl rfl rfl h rfl rfl rfl rfl rfl rfl rfl rfl rfl rfl rfl

theorem handSources_keeps (s : State) : KeepsAllBut [] s (handSources s) :=
  keeps_of_blocks rfl rfl rfl rfl rfl rfl rfl rfl rfl rfl rfl rfl rfl rfl rfl rfl

/-- A system tile shown: it stands as it is, or its content differs and it is written anew (R147). -/
theorem writeSystem_cases (u : ConsoleUnit) (n writer : Nat) (c : TileContent) :
    ((u.tiles.getD n {}).content = c ∧ u.writeSystem n writer c = u) ∨
    ((u.tiles.getD n {}).content ≠ c ∧ u.writeSystem n writer c = { u with
      tiles := u.tiles.set n { u.tiles.getD n {} with
        state := .dirty, lastWriter := writer, version := some ((u.tiles.getD n {}).version.getD 0 + 1), content := c }
      systemQueue := if (u.tiles.getD n {}).state = .dirty then u.systemQueue else u.systemQueue ++ [n] }) := by
  unfold ConsoleUnit.writeSystem
  by_cases h : (u.tiles.getD n {}).content = c
  · exact .inl ⟨h, if_pos h⟩
  · exact .inr ⟨h, if_neg h⟩

theorem writeSystem_still (u : ConsoleUnit) (n writer : Nat) (c : TileContent) (h : n = 252 ∨ n = 253 ∨ n = 254 ∨ n = 255) :
    (u.writeSystem n writer c).still = u.still := by
  unfold ConsoleUnit.writeSystem
  dsimp only
  split
  · rfl
  · unfold ConsoleUnit.still
    congr 1
    apply Table.ext_list
    apply List.ext_getElem?
    intro j
    rcases h with h | h | h | h <;> subst h <;>
      simp only [Table.set, List.getElem?_set, List.length_set] <;> (repeat' split) <;> simp_all

/-- What a system tile carries once it has been shown (R147). -/
theorem writeSystem_content (u : ConsoleUnit) (n writer : Nat) (c : TileContent) (x : Tile)
    (h : (u.writeSystem n writer c).tiles.get? n = some x) : x.content = c := by
  obtain ⟨hc, he⟩ | ⟨-, he⟩ := writeSystem_cases u n writer c <;> rw [he] at h
  · simpa [Table.getD, Table.get?, List.getD_eq_getElem?_getD, show u.tiles.list[n]? = some x from h] using hc
  · obtain ⟨_, _, rfl⟩ := Option.map_eq_some_iff.mp (List.getElem?_set_self'.symm.trans h)
    rfl

/-- A system tile shown leaves every other tile (R147). -/
theorem writeSystem_other (u : ConsoleUnit) (n m writer : Nat) (c : TileContent) (h : m ≠ n) :
    (u.writeSystem n writer c).tiles.get? m = u.tiles.get? m := by
  obtain ⟨-, he⟩ | ⟨-, he⟩ := writeSystem_cases u n writer c <;> rw [he]
  exact Table.get?_set_other _ _ _ _ h

/-- A system tile of the table carries what it was shown last (R147). -/
theorem writeSystem_shown (u : ConsoleUnit) (n writer : Nat) (c : TileContent) (h : n < 256) :
    ((u.writeSystem n writer c).tiles.get? n).map Tile.content = some c := by
  have e := Table.get?_of_lt (u.writeSystem n writer c).tiles n ({} : Tile) h
  rw [e, Option.map_some]
  exact congrArg some (writeSystem_content u n writer c _ e)

/-- The strongest assignment read through the content of tile 252 (R89). -/
@[simp] theorem shownTrips_strongest (s : State) (actions : Table Action 32) (g : Nat) :
    (shownTrips s).strongest actions g = some (strongest actions s.trip.view g) := rfl

theorem setConsole_keeps (s : State) (u : ConsoleUnit) (h : u.still = s.console.still) : KeepsAllBut [] s (s.setConsole u) :=
  keeps_of_blocks rfl rfl rfl rfl rfl rfl h rfl rfl rfl rfl rfl rfl rfl rfl rfl

theorem showAxes_keeps (s : State) : KeepsAllBut [] s (showAxes s) :=
  setConsole_keeps _ _ (writeSystem_still _ _ _ _ (by decide))

theorem showRing_keeps (s : State) : KeepsAllBut [] s (showRing s) :=
  setConsole_keeps _ _ (writeSystem_still _ _ _ _ (by decide))

theorem showStreams_keeps (s : State) : KeepsAllBut [] s (showStreams s) :=
  setConsole_keeps _ _ (writeSystem_still _ _ _ _ (by decide))

theorem choosePortIf_keeps (due : Bool) (t : State) (p : PortId) : KeepsAllBut [] t (choosePortIf due t p) := by
  unfold choosePortIf
  split
  · exact choosePort_keeps t p
  · exact KeepsAllBut.refl _ _

theorem settleQueues_keeps (s t : State) : KeepsAllBut [] t (settleQueues s t) := by
  unfold settleQueues
  dsimp only
  generalize hx : placeSegment (placeSegment t 0) 1 = x
  generalize choiceDue s x .a = a
  generalize choiceDue s x .b = b
  have h0 : KeepsAllBut [] t x := hx ▸ (placeSegment_keeps t 0).trans (placeSegment_keeps _ 1)
  refine h0.trans (((choosePortIf_keeps a x .a).trans (choosePortIf_keeps b _ .b)).trans ?_)
  exact setImage_keeps _ _ (arbitrate_still _ _)

/-- The end of a command keeps every block up to its `still` form. -/
theorem settle_keeps (s t : State) : KeepsAllBut [] t (settle s t) := by
  unfold settle
  exact (((settleQueues_keeps s t).trans (handSources_keeps _)).trans (showAxes_keeps _)).trans
    ((showRing_keeps _).trans (showStreams_keeps _))

/-- At the end of a command tiles 253 to 255 show the state that it leaves (R147). -/
theorem settle_shown (s t : State) : ∀ x ∈ shownIn (settle s t), x.1 ≠ 252 →
    ((settle s t).console.tiles.get? x.1).map Tile.content = some x.2 := by
  unfold settle
  generalize handSources (settleQueues s t) = v
  simp only [shownIn, List.mem_cons, List.not_mem_nil, or_false]
  rintro x (rfl | rfl | rfl | rfl) h
  · exact absurd rfl h
  · rw [showStreams, State.setConsole_console, writeSystem_other _ 255 253 _ _ (by decide), showRing, State.setConsole_console,
      writeSystem_other _ 254 253 _ _ (by decide)]
    exact writeSystem_shown _ _ _ _ (by decide)
  · rw [showStreams, State.setConsole_console, writeSystem_other _ 255 254 _ _ (by decide)]
    exact writeSystem_shown _ _ _ _ (by decide)
  · exact writeSystem_shown _ _ _ _ (by decide)

/-- The ring state formed anew is what the links make it, and the election unit follows it (R158, R176). -/
theorem formRing_follows (s : State) : RingLaw (formRing s) ∧ ElectionFollowsRing s (formRing s) := by
  refine ⟨rfl, fun h r => ?_, fun h r q => ?_, fun h => ?_⟩ <;>
    simp only [formRing, ElectionUnit.ringChanged, State.setForward_forward, State.setElection_election,
      State.setElection_forward] at *
  · simp [h, r]
  · simp [h, r, q]
  · obtain h | ⟨h, q⟩ := h
    · simp [h]
    · simp [h, q]

/-- A queue that nothing is placed in and nothing starts from has stayed as it is. -/
theorem QueueMoved.refl {α : Type} (l : List α) (frame : α → Frame) (room : Nat) : QueueMoved l l frame room none :=
  ⟨[], Nat.zero_le _, fun _ => (List.append_nil l).symm, fun _ h => nomatch h⟩

/-! ### The same, block by block -/

section Blocks
variable (s t : State)

@[simp] theorem settle_cycle : (settle s t).cycle = t.cycle := (settle_keeps s t).1 .cycle (List.not_mem_nil)
@[simp] theorem settle_axis : (settle s t).axis = t.axis := (settle_keeps s t).1 .axis (List.not_mem_nil)
@[simp] theorem settle_drive : (settle s t).drive = t.drive := (settle_keeps s t).1 .drive (List.not_mem_nil)
@[simp] theorem settle_mark : (settle s t).mark = t.mark := (settle_keeps s t).1 .mark (List.not_mem_nil)
@[simp] theorem settle_election : (settle s t).election = t.election := (settle_keeps s t).1 .election (List.not_mem_nil)
@[simp] theorem settle_agent : (settle s t).agent = t.agent := (settle_keeps s t).1 .agent (List.not_mem_nil)
@[simp] theorem settle_straps : (settle s t).straps = t.straps := (settle_keeps s t).2.1
@[simp] theorem settle_resetEnd : (settle s t).resetEnd = t.resetEnd := (settle_keeps s t).2.2.1
@[simp] theorem settle_pending : (settle s t).pending = t.pending := (settle_keeps s t).2.2.2.1
@[simp] theorem settle_resetHeld : (settle s t).resetHeld = t.resetHeld := (settle_keeps s t).2.2.2.2
theorem settle_trip : (settle s t).trip.still = t.trip.still := (settle_keeps s t).1 .trip (List.not_mem_nil)
theorem settle_image : (settle s t).image.still = t.image.still := (settle_keeps s t).1 .image (List.not_mem_nil)
theorem settle_console : (settle s t).console.still = t.console.still := (settle_keeps s t).1 .console (List.not_mem_nil)
theorem settle_forward : (settle s t).forward.still = t.forward.still := (settle_keeps s t).1 .forward (List.not_mem_nil)
theorem settle_portA : (settle s t).portA.still = t.portA.still := (settle_keeps s t).1 .portA (List.not_mem_nil)
theorem settle_portB : (settle s t).portB.still = t.portB.still := (settle_keeps s t).1 .portB (List.not_mem_nil)

end Blocks

/-! ### Fields of the blocks that the end of a command leaves -/

section Fields
variable (s t : State)

theorem TripUnit.still_sources {a b : TripUnit} (h : a.still = b.still) : a.sources = b.sources := by
  have h2 := congrArg TripUnit.sources h; exact h2
theorem TripUnit.still_pins {a b : TripUnit} (h : a.still = b.still) : a.pins = b.pins := by
  have h2 := congrArg TripUnit.pins h; exact h2
theorem TripUnit.still_filtered {a b : TripUnit} (h : a.still = b.still) : a.filtered = b.filtered := by
  have h2 := congrArg TripUnit.filtered h; exact h2
theorem TripUnit.still_hold {a b : TripUnit} (h : a.still = b.still) : a.hold = b.hold := by
  have h2 := congrArg TripUnit.hold h; exact h2
theorem TripUnit.still_staging {a b : TripUnit} (h : a.still = b.still) : a.staging = b.staging := by
  have h2 := congrArg TripUnit.staging h; exact h2
theorem TripUnit.still_active {a b : TripUnit} (h : a.still = b.still) : a.active = b.active := by
  have h2 := congrArg TripUnit.active h; exact h2
theorem TripUnit.still_own {a b : TripUnit} (h : a.still = b.still) : a.own = b.own := by
  have h2 := congrArg TripUnit.own h; exact h2
theorem TripUnit.still_held {a b : TripUnit} (h : a.still = b.still) : a.held = b.held := by
  have h2 := congrArg TripUnit.held h; exact h2
theorem TripUnit.still_total {a b : TripUnit} (h : a.still = b.still) : a.total = b.total := by
  have h2 := congrArg TripUnit.total h; exact h2
theorem TripUnit.still_upstream {a b : TripUnit} (h : a.still = b.still) : a.upstream = b.upstream := by
  have h2 := congrArg TripUnit.upstream h; exact h2
theorem TripUnit.still_blank {a b : TripUnit} (h : a.still = b.still) : a.blank = b.blank := by
  have h2 := congrArg TripUnit.blank h; exact h2
theorem TripUnit.still_dedupe {a b : TripUnit} (h : a.still = b.still) : a.dedupe = b.dedupe := by
  have h2 := congrArg TripUnit.dedupe h; exact h2
theorem TripUnit.still_seq {a b : TripUnit} (h : a.still = b.still) : a.seq = b.seq := by
  have h2 := congrArg TripUnit.seq h; exact h2
theorem TripUnit.still_view {a b : TripUnit} (h : a.still = b.still) : a.view = b.view := by
  have h2 := congrArg TripUnit.view h; exact h2
theorem TripUnit.still_actions {a b : TripUnit} (h : a.still = b.still) : a.actions = b.actions := by
  have h2 := congrArg TripUnit.actions h; exact h2
theorem TripUnit.still_outputs {a b : TripUnit} (h : a.still = b.still) : a.outputs = b.outputs := by
  have h2 := congrArg TripUnit.outputs h; exact h2
theorem TripUnit.still_counters {a b : TripUnit} (h : a.still = b.still) : a.counters = b.counters := by
  have h2 := congrArg TripUnit.counters h; exact h2
@[simp] theorem settle_trip_sources : (settle s t).trip.sources = t.trip.sources := TripUnit.still_sources (settle_trip s t)
@[simp] theorem settle_trip_pins : (settle s t).trip.pins = t.trip.pins := TripUnit.still_pins (settle_trip s t)
@[simp] theorem settle_trip_filtered : (settle s t).trip.filtered = t.trip.filtered := TripUnit.still_filtered (settle_trip s t)
@[simp] theorem settle_trip_hold : (settle s t).trip.hold = t.trip.hold := TripUnit.still_hold (settle_trip s t)
@[simp] theorem settle_trip_staging : (settle s t).trip.staging = t.trip.staging := TripUnit.still_staging (settle_trip s t)
@[simp] theorem settle_trip_active : (settle s t).trip.active = t.trip.active := TripUnit.still_active (settle_trip s t)
@[simp] theorem settle_trip_own : (settle s t).trip.own = t.trip.own := TripUnit.still_own (settle_trip s t)
@[simp] theorem settle_trip_held : (settle s t).trip.held = t.trip.held := TripUnit.still_held (settle_trip s t)
@[simp] theorem settle_trip_total : (settle s t).trip.total = t.trip.total := TripUnit.still_total (settle_trip s t)
@[simp] theorem settle_trip_upstream : (settle s t).trip.upstream = t.trip.upstream := TripUnit.still_upstream (settle_trip s t)
@[simp] theorem settle_trip_blank : (settle s t).trip.blank = t.trip.blank := TripUnit.still_blank (settle_trip s t)
@[simp] theorem settle_trip_dedupe : (settle s t).trip.dedupe = t.trip.dedupe := TripUnit.still_dedupe (settle_trip s t)
@[simp] theorem settle_trip_seq : (settle s t).trip.seq = t.trip.seq := TripUnit.still_seq (settle_trip s t)
@[simp] theorem settle_trip_view : (settle s t).trip.view = t.trip.view := TripUnit.still_view (settle_trip s t)
@[simp] theorem settle_trip_actions : (settle s t).trip.actions = t.trip.actions := TripUnit.still_actions (settle_trip s t)
@[simp] theorem settle_trip_outputs : (settle s t).trip.outputs = t.trip.outputs := TripUnit.still_outputs (settle_trip s t)
@[simp] theorem settle_trip_counters : (settle s t).trip.counters = t.trip.counters := TripUnit.still_counters (settle_trip s t)

theorem ImageUnit.still_memory {a b : ImageUnit} (h : a.still = b.still) : a.memory = b.memory := by
  have h2 := congrArg ImageUnit.memory h; exact h2
theorem ImageUnit.still_direction {a b : ImageUnit} (h : a.still = b.still) : a.direction = b.direction := by
  have h2 := congrArg ImageUnit.direction h; exact h2
theorem ImageUnit.still_tap {a b : ImageUnit} (h : a.still = b.still) : a.tap = b.tap := by
  have h2 := congrArg ImageUnit.tap h; exact h2
theorem ImageUnit.still_lineValid {a b : ImageUnit} (h : a.still = b.still) : a.lineValid = b.lineValid := by
  have h2 := congrArg ImageUnit.lineValid h; exact h2
theorem ImageUnit.still_released {a b : ImageUnit} (h : a.still = b.still) : a.released = b.released := by
  have h2 := congrArg ImageUnit.released h; exact h2
@[simp] theorem settle_image_memory : (settle s t).image.memory = t.image.memory := ImageUnit.still_memory (settle_image s t)
@[simp] theorem settle_image_direction : (settle s t).image.direction = t.image.direction := ImageUnit.still_direction (settle_image s t)
@[simp] theorem settle_image_tap : (settle s t).image.tap = t.image.tap := ImageUnit.still_tap (settle_image s t)
@[simp] theorem settle_image_lineValid : (settle s t).image.lineValid = t.image.lineValid := ImageUnit.still_lineValid (settle_image s t)
@[simp] theorem settle_image_released : (settle s t).image.released = t.image.released := ImageUnit.still_released (settle_image s t)

theorem ConsoleUnit.still_ordinaryQueue {a b : ConsoleUnit} (h : a.still = b.still) : a.ordinaryQueue = b.ordinaryQueue := by
  have h2 := congrArg ConsoleUnit.ordinaryQueue h; exact h2
theorem ConsoleUnit.still_inbound {a b : ConsoleUnit} (h : a.still = b.still) : a.inbound = b.inbound := by
  have h2 := congrArg ConsoleUnit.inbound h; exact h2
theorem ConsoleUnit.still_outbound {a b : ConsoleUnit} (h : a.still = b.still) : a.outbound = b.outbound := by
  have h2 := congrArg ConsoleUnit.outbound h; exact h2
theorem ConsoleUnit.still_replies {a b : ConsoleUnit} (h : a.still = b.still) : a.replies = b.replies := by
  have h2 := congrArg ConsoleUnit.replies h; exact h2
theorem ConsoleUnit.still_sending {a b : ConsoleUnit} (h : a.still = b.still) : a.sending = b.sending := by
  have h2 := congrArg ConsoleUnit.sending h; exact h2
theorem ConsoleUnit.still_holdIn {a b : ConsoleUnit} (h : a.still = b.still) : a.holdIn = b.holdIn := by
  have h2 := congrArg ConsoleUnit.holdIn h; exact h2
theorem ConsoleUnit.still_counters {a b : ConsoleUnit} (h : a.still = b.still) : a.counters = b.counters := by
  have h2 := congrArg ConsoleUnit.counters h; exact h2
@[simp] theorem settle_console_ordinaryQueue : (settle s t).console.ordinaryQueue = t.console.ordinaryQueue := ConsoleUnit.still_ordinaryQueue (settle_console s t)
@[simp] theorem settle_console_inbound : (settle s t).console.inbound = t.console.inbound := ConsoleUnit.still_inbound (settle_console s t)
@[simp] theorem settle_console_outbound : (settle s t).console.outbound = t.console.outbound := ConsoleUnit.still_outbound (settle_console s t)
@[simp] theorem settle_console_replies : (settle s t).console.replies = t.console.replies := ConsoleUnit.still_replies (settle_console s t)
@[simp] theorem settle_console_sending : (settle s t).console.sending = t.console.sending := ConsoleUnit.still_sending (settle_console s t)
@[simp] theorem settle_console_holdIn : (settle s t).console.holdIn = t.console.holdIn := ConsoleUnit.still_holdIn (settle_console s t)
@[simp] theorem settle_console_counters : (settle s t).console.counters = t.console.counters := ConsoleUnit.still_counters (settle_console s t)

theorem ForwardUnit.still_ring {a b : ForwardUnit} (h : a.still = b.still) : a.ring = b.ring := by
  have h2 := congrArg ForwardUnit.ring h; exact h2
theorem ForwardUnit.still_allowance {a b : ForwardUnit} (h : a.still = b.still) : a.allowance = b.allowance := by
  have h2 := congrArg ForwardUnit.allowance h; exact h2
theorem ForwardUnit.still_consoleCap {a b : ForwardUnit} (h : a.still = b.still) : a.consoleCap = b.consoleCap := by
  have h2 := congrArg ForwardUnit.consoleCap h; exact h2
theorem ForwardUnit.still_allowanceEff {a b : ForwardUnit} (h : a.still = b.still) : a.allowanceEff = b.allowanceEff := by
  have h2 := congrArg ForwardUnit.allowanceEff h; exact h2
theorem ForwardUnit.still_consoleCapEff {a b : ForwardUnit} (h : a.still = b.still) : a.consoleCapEff = b.consoleCapEff := by
  have h2 := congrArg ForwardUnit.consoleCapEff h; exact h2
theorem ForwardUnit.still_horizon {a b : ForwardUnit} (h : a.still = b.still) : a.horizon = b.horizon := by
  have h2 := congrArg ForwardUnit.horizon h; exact h2
@[simp] theorem settle_forward_ring : (settle s t).forward.ring = t.forward.ring := ForwardUnit.still_ring (settle_forward s t)
@[simp] theorem settle_forward_allowance : (settle s t).forward.allowance = t.forward.allowance := ForwardUnit.still_allowance (settle_forward s t)
@[simp] theorem settle_forward_consoleCap : (settle s t).forward.consoleCap = t.forward.consoleCap := ForwardUnit.still_consoleCap (settle_forward s t)
@[simp] theorem settle_forward_allowanceEff : (settle s t).forward.allowanceEff = t.forward.allowanceEff := ForwardUnit.still_allowanceEff (settle_forward s t)
@[simp] theorem settle_forward_consoleCapEff : (settle s t).forward.consoleCapEff = t.forward.consoleCapEff := ForwardUnit.still_consoleCapEff (settle_forward s t)
@[simp] theorem settle_forward_horizon : (settle s t).forward.horizon = t.forward.horizon := ForwardUnit.still_horizon (settle_forward s t)

theorem FibrePort.still_link {a b : FibrePort} (h : a.still = b.still) : a.link = b.link := by
  have h2 := congrArg FibrePort.link h; exact h2
theorem FibrePort.still_counters {a b : FibrePort} (h : a.still = b.still) : a.counters = b.counters := by
  have h2 := congrArg FibrePort.counters h; exact h2
@[simp] theorem settle_portA_link : (settle s t).portA.link = t.portA.link := FibrePort.still_link (settle_portA s t)
@[simp] theorem settle_portA_counters : (settle s t).portA.counters = t.portA.counters := FibrePort.still_counters (settle_portA s t)
@[simp] theorem settle_portB_link : (settle s t).portB.link = t.portB.link := FibrePort.still_link (settle_portB s t)
@[simp] theorem settle_portB_counters : (settle s t).portB.counters = t.portB.counters := FibrePort.still_counters (settle_portB s t)
theorem State.port_a (s : State) : s.port .a = s.portA := rfl
theorem State.port_b (s : State) : s.port .b = s.portB := rfl
@[simp] theorem settle_port_link (p : PortId) : ((settle s t).port p).link = (t.port p).link := by
  cases p
  · rw [State.port_a, State.port_a]; exact settle_portA_link s t
  · rw [State.port_b, State.port_b]; exact settle_portB_link s t
@[simp] theorem settle_port_counters (p : PortId) : ((settle s t).port p).counters = (t.port p).counters := by
  cases p
  · rw [State.port_a, State.port_a]; exact settle_portA_counters s t
  · rw [State.port_b, State.port_b]; exact settle_portB_counters s t

end Fields

/-! ### The clock -/

theorem placeSegment_now (s : State) (i : Nat) : (placeSegment s i).now = s.now := by
  unfold placeSegment; dsimp only; split <;> rfl

theorem startClass_now (s : State) (p : PortId) : (startClass s p).now = s.now := by
  unfold startClass
  split
  · rfl
  · rename_i e f _
    cases e.owner <;> simp [handedOver, placeSegment_now, segmentHanded, setCtx]

theorem choosePort_now (s : State) (p : PortId) : (choosePort s p).now = s.now := by
  unfold choosePort
  dsimp only
  repeat' split
  all_goals first | exact startClass_now s p | rfl | exact State.setPort_now s p _

theorem choosePortIf_now (due : Bool) (t : State) (p : PortId) : (choosePortIf due t p).now = t.now := by
  unfold choosePortIf
  split
  · exact choosePort_now t p
  · rfl

@[simp] theorem settle_now (s t : State) : (settle s t).now = t.now := by
  unfold settle showStreams showRing showAxes handSources settleQueues
  simp only [State.setConsole_now, State.setTrip_now, State.setImage_now]
  rw [choosePortIf_now, choosePortIf_now, placeSegment_now, placeSegment_now]

/-! ### The end of a command, by the level at RESET (R90) -/

theorem done_released (s t : State) (h : s.resetHeld = false) : done s t = .next (settle s t) := by simp [done, h]

theorem done_held (s t : State) (h : s.resetHeld = true) : done s t = .next (t.inReset t.now) := by simp [done, h]

theorem timed_released (s t : State) (h : s.resetHeld = false) : timed s t = .next (settle s t) := by simp [timed, h]

theorem timed_held (s t : State) (h : s.resetHeld = true) : timed s t = .next s := by simp [timed, h]

/-- A command of the outside takes the state on, whatever the level at RESET. -/
theorem done_cases (s t : State) :
    (s.resetHeld = false ∧ done s t = .next (settle s t)) ∨ (s.resetHeld = true ∧ done s t = .next (t.inReset t.now)) := by
  cases h : s.resetHeld
  · exact .inl ⟨rfl, done_released s t h⟩
  · exact .inr ⟨rfl, done_held s t h⟩

/-- A port chooses its next frame exactly where a cause of a choice has happened. -/
theorem choosePortIf_cases (due : Bool) (t : State) (p : PortId) :
    (due = true ∧ choosePortIf due t p = choosePort t p) ∨ (due = false ∧ choosePortIf due t p = t) := by
  cases due
  · exact .inr ⟨rfl, rfl⟩
  · exact .inl ⟨rfl, rfl⟩

/-! ### Polls and stop groups -/

/-- The axis polled next is one of the list, has not entered OFF since its values were handed over, and every axis before it in
the list has (R26, R49). -/
theorem pollNext_spec (u : AxisUnit) (tag : Byte) (now : Time) (l : List Handed) (p : Poll) (h : pollNext u tag now l = some p) :
    ∃ skipped, l = skipped ++ p.current :: p.rest ∧ p.current.isOff u = false ∧ (∀ x ∈ skipped, x.isOff u = true) ∧
      p.tag = tag ∧ p.phase = .sending (now + setpointTime) := by
  induction l with
  | nil => cases h
  | cons x rest ih =>
    unfold pollNext at h
    by_cases hx : x.isOff u = true
    · rw [if_pos hx] at h
      obtain ⟨k, hl, ho, hk, hrest⟩ := ih h
      refine ⟨x :: k, by rw [hl]; rfl, ho, ?_, hrest⟩
      intro y hy
      rcases List.mem_cons.mp hy with rfl | hy
      · exact hx
      · exact hk y hy
    · rw [if_neg hx] at h
      cases h
      exact ⟨[], rfl, by simpa using hx, by simp, rfl, rfl⟩

/-- A stop group coming into use: the axis keeps its state, or was in FOLLOW in a group the view stops and takes the group's
strongest action (R23, R40). -/
theorem takeGroup_cases (e : AxisEntry) (t : TripUnit) :
    e.takeGroup t = { e with groupInUse := e.group } ∨
    (e.state = .follow ∧ groupStopped t e.group = true ∧
      e.takeGroup t = ({ e with groupInUse := e.group } : AxisEntry).tripped (strongest t.actions t.view e.group)) := by
  unfold AxisEntry.takeGroup
  by_cases h : (e.state = .follow && groupStopped t e.group) = true
  · refine .inr ⟨?_, ?_, by rw [if_pos h]⟩ <;> simp_all
  · exact .inl (by rw [if_neg h])

/-! ### Shared operations of the agent -/

/-- The execution of a queued request: either it is not the command's turn, or the head was taken and answered by its checks
or its effect. -/
theorem execute_cases (s : State) (mine : Request → Bool) (k : RequestKind) (act : State → Request → Executed) :
    execute s mine k act = s ∨
    ∃ r rest, s.agent.queue = r :: rest ∧ agentFree s = true ∧ mine r = true ∧
      ((firstChecks (s.setAgent { s.agent with queue := rest }) r k = .ok ∧
          execute s mine k act = answerRequest r (some k) (act (s.setAgent { s.agent with queue := rest }) r)) ∨
        (firstChecks (s.setAgent { s.agent with queue := rest }) r k ≠ .ok ∧
          execute s mine k act = answerRequest r (some k) (refuse (s.setAgent { s.agent with queue := rest })
            (firstChecks (s.setAgent { s.agent with queue := rest }) r k)))) := by
  unfold execute takeHead
  cases hq : s.agent.queue with
  | nil => exact .inl rfl
  | cons r rest =>
    dsimp only
    by_cases hf : (agentFree s && mine r) = true
    · rw [if_pos hf]
      refine .inr ⟨r, rest, rfl, ?_, ?_, ?_⟩
      · simp_all
      · simp_all
      · dsimp only
        cases hc : firstChecks (s.setAgent { s.agent with queue := rest }) r k <;> simp
    · rw [if_neg hf]; exact .inl rfl

/-- A record placed in the reply queue: at its tail, or lost and counted. -/
theorem reply_cases (u : ConsoleUnit) (r : Reply) :
    (u.replies.length < 16 ∧ u.reply r = { u with replies := u.replies ++ [r] }) ∨
    (16 ≤ u.replies.length ∧
      u.reply r = { u with counters := { u.counters with replyLost := bump u.counters.replyLost } }) := by
  unfold ConsoleUnit.reply
  by_cases h : u.replies.length < 16
  · exact .inl ⟨h, by rw [if_pos h]⟩
  · exact .inr ⟨by omega, by rw [if_neg h]⟩

end Sys2Proof.Machine
end

