-- ==== Sys2Proof/Laws/Agent.lean ====
section
/-!
SUPPORT. What the execution of a queued request does, said once: the head is taken, the checks pass, the effect is made, and the
answer stands in the reply queue or in the management class queue when the command has ended.
-/
namespace Sys2Proof.Machine

/-! ### The management class queue at the end of a command -/

theorem placeSegment_management (s : State) (i : Nat) : (placeSegment s i).forward.management = s.forward.management := by
  unfold placeSegment
  dsimp only
  split
  · unfold placeFrame ForwardUnit.place
    simp only [State.setForward_forward]
    split <;> rfl
  · rfl

theorem handedOver_management (s : State) (o : Owner) : (handedOver s o).forward.management = s.forward.management := by
  cases o <;> simp [handedOver, placeSegment_management, segmentHanded, setCtx]

theorem placeSegment_port (s : State) (i : Nat) (p : PortId) : (placeSegment s i).port p = s.port p := by
  unfold placeSegment
  dsimp only
  split
  · exact State.setForward_port _ _ _
  · rfl

theorem handedOver_port (s : State) (o : Owner) (p : PortId) : (handedOver s o).port p = s.port p := by
  cases o <;> simp [handedOver, placeSegment_port, segmentHanded, setCtx]

theorem placeSegment_ring (s : State) (i : Nat) : (placeSegment s i).forward.ring = s.forward.ring := by
  unfold placeSegment
  dsimp only
  split
  · unfold placeFrame ForwardUnit.place
    simp only [State.setForward_forward]
    split <;> rfl
  · rfl

/-- What the choice of a class frame does to the management queue: nothing, or its head starts. -/
theorem chooseClass_management (f : ForwardUnit) (now : Time) (r : Rate) :
    (f.chooseClass now r).unit.management = f.management ∨
    ∃ e g, f.chooseClass now r = .start e g ∧ f.management.head? = some e ∧ g.management = f.management.tail := by
  have hb : ∀ g : ForwardUnit, g.holdBack.management = g.management := by intro g; unfold ForwardUnit.holdBack; split <;> rfl
  have step : ∀ (g : ForwardUnit) (c : FrameClass) (next : ForwardUnit → ClassChoice), c ≠ .management →
      (∀ h : ForwardUnit, (next h).unit.management = h.management) → (g.tryClass now r c next).unit.management = g.management := by
    intro g c next hc hn
    unfold ForwardUnit.tryClass
    split
    · exact hn g
    · split
      · split
        · cases c <;> first | exact absurd rfl hc | rfl
        · rw [hn]; exact hb g
      · exact hn g
  have low : ∀ h : ForwardUnit, (h.tryClass now r .console fun f2 => f2.tryClass now r .image fun f3 => .nothing f3).unit.management
      = h.management := by
    intro h
    refine step h .console _ (by decide) fun h2 => ?_
    exact step h2 .image _ (by decide) fun h3 => rfl
  unfold ForwardUnit.chooseClass
  rw [ForwardUnit.tryClass]
  split
  · exact .inl (low f)
  · rename_i e rest he
    split
    · split
      · refine .inr ⟨e, _, rfl, ?_, ?_⟩
        · show (ForwardUnit.management f).head? = some e
          have : f.management = e :: rest := he
          rw [this]; rfl
        · rfl
      · refine .inl ?_
        rw [low]; exact hb f
    · exact .inl (low f)

theorem startClass_management (s : State) (p : PortId) :
    (startClass s p).forward.management = s.forward.management ∨
    ∃ e y, s.forward.management.head? = some e ∧ (startClass s p).forward.management = s.forward.management.tail ∧
      ((startClass s p).port p).sending = some y ∧ y.frame = e.frame := by
  have h := chooseClass_management s.forward s.now (s.port p).link.rate
  unfold startClass
  split
  · rename_i f hf
    rw [hf] at h
    rcases h with h | ⟨e, g, h, _⟩
    · exact .inl h
    · cases h
  · rename_i e f hf
    rw [hf] at h
    rcases h with h | ⟨e', g, h, hh, ht⟩
    · refine .inl ?_
      rw [handedOver_management, State.setPort_forward]
      exact h
    · cases h
      refine .inr ⟨e, ⟨e.frame, (s.port p).lineFree s.now + e.frame.time (s.port p).link.rate, false, e.closing⟩, hh, ?_, ?_, rfl⟩
      · rw [handedOver_management, State.setPort_forward]; exact ht
      · rw [handedOver_port, State.setPort_port_same]; rfl

theorem startClass_port_other (s : State) (p q : PortId) (h : q ≠ p) : (startClass s p).port q = s.port q := by
  unfold startClass
  split
  · exact State.setForward_port _ _ _
  · rw [handedOver_port, State.setPort_port_other _ _ _ _ h, State.setForward_port]

/-- What the choice of a port's next frame does to the management queue: nothing, or its head starts on that port, which is then
the own-send port. -/
theorem choosePort_management (s : State) (p : PortId) :
    (choosePort s p).forward.management = s.forward.management ∨
    ∃ e y, ownSendPort s.forward.ring = some p ∧ s.forward.management.head? = some e ∧
      (choosePort s p).forward.management = s.forward.management.tail ∧
      ((choosePort s p).port p).sending = some y ∧ y.frame = e.frame := by
  unfold choosePort
  dsimp only
  split
  · exact .inl rfl
  · split
    · exact .inl (by rw [State.setPort_forward])
    · split
      · exact .inl (by rw [State.setPort_forward])
      · split
        · exact .inl (by rw [State.setPort_forward])
        · split
          · rename_i h
            rcases startClass_management s p with h1 | ⟨e, y, h1, h2, h3, h4⟩
            · exact .inl h1
            · exact .inr ⟨e, y, h, h1, h2, h3, h4⟩
          · exact .inl rfl

theorem choosePort_port_other (s : State) (p q : PortId) (h : q ≠ p) : (choosePort s p).port q = s.port q := by
  unfold choosePort
  dsimp only
  repeat' split
  all_goals first
    | rfl
    | exact State.setPort_port_other _ _ _ _ h
    | exact startClass_port_other _ _ _ h

theorem choosePort_ring (s : State) (p : PortId) : (choosePort s p).forward.ring = s.forward.ring :=
  ForwardUnit.still_ring ((choosePort_keeps s p).1 .forward List.not_mem_nil)

theorem choosePortIf_management (due : Bool) (s : State) (p : PortId) :
    (choosePortIf due s p).forward.management = s.forward.management ∨
    ∃ e y, ownSendPort s.forward.ring = some p ∧ s.forward.management.head? = some e ∧
      (choosePortIf due s p).forward.management = s.forward.management.tail ∧
      ((choosePortIf due s p).port p).sending = some y ∧ y.frame = e.frame := by
  unfold choosePortIf
  split
  · exact choosePort_management s p
  · exact .inl rfl

theorem choosePortIf_port_other (due : Bool) (s : State) (p q : PortId) (h : q ≠ p) :
    (choosePortIf due s p).port q = s.port q := by
  unfold choosePortIf
  split
  · exact choosePort_port_other s p q h
  · rfl

theorem choosePortIf_ring (due : Bool) (s : State) (p : PortId) : (choosePortIf due s p).forward.ring = s.forward.ring :=
  ForwardUnit.still_ring ((choosePortIf_keeps due s p).1 .forward List.not_mem_nil)

/-- What the end of a command does to the management queue: nothing, or its head starts on a port. -/
theorem settle_management (s t : State) :
    (settle s t).forward.management = t.forward.management ∨
    ((settle s t).forward.management = t.forward.management.tail ∧
      ∃ p y e, ((settle s t).port p).sending = some y ∧ t.forward.management.head? = some e ∧ y.frame = e.frame) := by
  have hm : (settle s t).forward = (settleQueues s t).forward := by
    simp only [settle, showStreams, showRing, showAxes, handSources, State.setConsole_forward, State.setTrip_forward]
  have hp : ∀ p, (settle s t).port p = (settleQueues s t).port p := fun p => by
    simp only [settle, showStreams, showRing, showAxes, handSources, State.setConsole_port, State.setTrip_port]
  rw [hm]
  simp only [hp, settleQueues, State.setImage_forward, State.setImage_port]
  have h0 : (placeSegment (placeSegment t 0) 1).forward.management = t.forward.management := by
    rw [placeSegment_management, placeSegment_management]
  generalize placeSegment (placeSegment t 0) 1 = x at *
  generalize choiceDue s x .a = a
  generalize choiceDue s x .b = b
  rw [← h0]
  rcases choosePortIf_management a x .a with ha | ⟨e, y, ho, h1, h2, h3, h4⟩
  · rcases choosePortIf_management b (choosePortIf a x .a) .b with hb | ⟨e, y, ho, h1, h2, h3, h4⟩
    · exact .inl (hb.trans ha)
    · rw [ha] at h1 h2
      exact .inr ⟨h2, .b, y, e, h3, h1, h4⟩
  · rcases choosePortIf_management b (choosePortIf a x .a) .b with hb | ⟨e', y', ho', _⟩
    · refine .inr ⟨hb.trans h2, .a, y, e, ?_, h1, h4⟩
      rw [choosePortIf_port_other _ _ _ _ (by decide)]; exact h3
    · rw [choosePortIf_ring, ho] at ho'
      cases ho'

/-! ### The answer of an execution -/

/-- The answer to a request, at the end of the command: `x` is the state after the effect, which left the console unit (its system
tiles aside) and the forwarding unit as they were in `s`, with the frames `before` in the management class queue. -/
theorem answered_settle (s x u : State) (before : List ClassEntry) (r : Request) (st : Status) (data : AnswerData) (closing : Bool)
    (hc : x.console.still = s.console.still) (hf : x.forward.still = s.forward.still) (hm : x.forward.management = before)
    (hs : x.straps = s.straps)
    (ho : before.length < 16 ↔ s.forward.management.length < 16) :
    Answered s (settle u (answerAs x (.answer closing) r st data closing)) before r st data closing := by
  have han : answeringNode x = answeringNode s := by
    unfold answeringNode State.hasAddress State.addressByte; rw [hs]
  have hb : x.addressByte = s.addressByte := by unfold State.addressByte; rw [hs]
  have reply_still : ∀ (u v : ConsoleUnit) (k : Reply), u.still = v.still → (u.reply k).still = (v.reply k).still := by
    intro u v k h
    have h1 : u.replies = v.replies := ConsoleUnit.still_replies h
    have h2 : u.counters = v.counters := ConsoleUnit.still_counters h
    unfold ConsoleUnit.reply
    rw [h1]
    split
    · cases u; cases v
      simp only [ConsoleUnit.still, ConsoleUnit.mk.injEq] at h ⊢
      simp only [h, and_self]
    · cases u; cases v
      simp only [ConsoleUnit.still, ConsoleUnit.mk.injEq] at h h2 ⊢
      simp only [h, and_self]
  unfold Answered answerAs
  by_cases hl : r.loc = true
  · simp only [hl, if_true]
    refine ⟨?_, ?_⟩
    · rw [settle_console]
      unfold placeReply answerRecord
      rw [State.setConsole_console, han]
      exact reply_still _ _ _ hc
    · show (settle u _).forward.still = s.forward.still
      rw [settle_forward]
      exact hf
  · simp only [hl, Bool.false_eq_true, if_false]
    have hplace : (x.forward.place .management (answerEntry s r st data closing)).still
        = (s.forward.place .management (answerEntry s r st data closing)).still := by
      unfold ForwardUnit.place
      dsimp only
      rw [hm]
      by_cases hlt : before.length < 16
      · rw [if_pos hlt, if_pos (ho.1 hlt)]
        exact hf
      · rw [if_neg hlt, if_neg (fun h => hlt (ho.2 h))]
        generalize x.forward = f at *
        generalize s.forward = g at *
        cases f; cases g
        simp only [ForwardUnit.still, ForwardUnit.mk.injEq, ForwardCounters.mk.injEq] at hf ⊢
        simp only [hf, and_self]
    have he : (⟨Frame.own x.addressByte .answer r.origin (answerPayload r.tag st data), .answer closing⟩ : ClassEntry)
        = answerEntry s r st data closing := by rw [hb]; rfl
    refine ⟨?_, ?_, ?_⟩
    · intro hlt
      have := settle_management u (placeFrame x .management (.answer closing) .answer r.origin (answerPayload r.tag st data))
      unfold placeFrame at this ⊢
      rw [he] at this ⊢
      rw [State.setForward_forward] at this
      have hp : (x.forward.place .management (answerEntry s r st data closing)).management =
          before ++ [answerEntry s r st data closing] := by
        unfold ForwardUnit.place
        dsimp only
        rw [hm, if_pos hlt]
      rw [hp] at this
      rcases this with h | ⟨h, p, y, e, h1, h2, h3⟩
      · exact .inl h
      · exact .inr ⟨h, p, y, e, h1, h2, h3⟩
    · rw [settle_forward]
      unfold placeFrame
      rw [State.setForward_forward, he]
      exact hplace
    · show (settle u _).console.still = s.console.still
      rw [settle_console]
      exact hc

/-- A request whose turn it is, that its origin may make, and that names an entry of its item: the head is taken, the effect is
made on the state without it, and the effect's status and data are answered. -/
theorem execute_due (s : State) (mine : Request → Bool) (k : RequestKind) (act : State → Request → Executed) (r : Request)
    (rest : List Request) (hd : Due s r rest k) (hmine : mine r = true)
    (hi : match k.use with
      | .none => True
      | .any => ∃ i, Names r i
      | .only i => Names r i) :
    execute s mine k act = answerRequest r (some k) (act (s.setAgent { s.agent with queue := rest }) r) := by
  obtain ⟨hq, hfree, _, hperm⟩ := hd
  have hc : firstChecks (s.setAgent { s.agent with queue := rest }) r k = .ok := by
    have hp : permitted (s.setAgent { s.agent with queue := rest }) r = permitted s r := rfl
    unfold firstChecks
    rw [hp, if_neg (by rcases hperm with h | h <;> simp [h])]
    revert hi
    cases k.use with
    | none => intro _; rfl
    | any => rintro ⟨i, h1, h2⟩; simp [h1, h2]
    | only i => rintro ⟨h1, h2⟩; simp [h1, h2]
  unfold execute takeHead
  rw [hq]
  dsimp only
  rw [hfree, hmine, Bool.and_self, if_pos rfl]
  dsimp only
  rw [hc]

end Sys2Proof.Machine
end

