-- ==== Sys2Proof/Laws/Restart.lean ====
section
/-!
SUPPORT. What the restart of all contexts and a failed acquisition attempt can do, and that the end of a command leaves the image unit
alone where no context that runs holds a line and no segment waits.
-/
namespace Sys2Proof.Machine

/-! ### The end of a command behind a restart of every context -/

/-- No context that runs holds a line, the console and image class queues are empty, and no segment waits in the management class. -/
structure Quiet (s : State) : Prop where
  held : ∀ i, (s.image.ctx i).record.mode ≠ .off → (s.image.ctx i).work.held = 0
  console : s.forward.console = []
  image : s.forward.image = []
  management : ∀ e ∈ s.forward.management, ∀ i, e.owner ≠ .segment i

theorem placeSegment_quiet {s : State} (h : Quiet s) (i : Nat) : placeSegment s i = s := by
  unfold placeSegment
  dsimp only
  rw [if_neg]
  simp only [Bool.and_eq_true, decide_eq_true_eq, not_and, Bool.not_eq_true]
  intro ⟨hm, hh⟩
  have := h.held i (by rw [hm]; decide)
  omega

/-- With nothing in the lower class queues the choice finds the head of the management class or nothing. -/
theorem chooseClass_quiet (f : ForwardUnit) (now : Time) (r : Rate) (hc : f.console = []) (hi : f.image = []) :
    (f.chooseClass now r).unit.console = [] ∧ (f.chooseClass now r).unit.image = [] ∧
    (∀ e ∈ (f.chooseClass now r).unit.management, e ∈ f.management) ∧
    ∀ e g, f.chooseClass now r = .start e g → e ∈ f.management := by
  unfold ForwardUnit.chooseClass ForwardUnit.tryClass
  have hb : ∀ g : ForwardUnit, g.holdBack.console = g.console ∧ g.holdBack.image = g.image ∧ g.holdBack.management = g.management := by
    intro g; unfold ForwardUnit.holdBack; split <;> simp
  have h1 : ∀ g : ForwardUnit, g.console = [] → g.classQueue .console = [] := fun g h => h
  have h2 : ∀ g : ForwardUnit, g.image = [] → g.classQueue .image = [] := fun g h => h
  split
  · simp [h1, h2, hc, hi, ClassChoice.unit]
  · rename_i e rest he
    have he' : f.management = e :: rest := he
    split
    · split
      · simp [ClassChoice.unit, ForwardUnit.charge, ForwardUnit.dropHead, hc, hi, he']
        tauto
      · simp [h1, h2, hc, hi, hb, ClassChoice.unit]
    · simp [h1, h2, hc, hi, ClassChoice.unit]

@[simp] theorem ClassChoice.unit_start (e : ClassEntry) (f : ForwardUnit) : (ClassChoice.start e f).unit = f := rfl

theorem startClass_quiet {s : State} (h : Quiet s) (p : PortId) : Quiet (startClass s p) ∧ (startClass s p).image = s.image := by
  obtain ⟨h1, h2, h3, h4⟩ := chooseClass_quiet s.forward s.now (s.port p).link.rate h.console h.image
  unfold startClass
  split
  · rename_i f hf
    rw [hf] at h1 h2 h3
    exact ⟨⟨h.held, h1, h2, fun e he => h.management e (h3 e he)⟩, rfl⟩
  · rename_i e f hf
    rw [hf] at h1 h2 h3
    have keeps : ∀ x, handedOver x e.owner = x := fun x => by
      cases hh : e.owner <;> first | rfl | exact absurd hh (h.management e (h4 e f hf) _)
    rw [keeps]
    exact ⟨⟨by simpa using h.held, by simpa using h1, by simpa using h2,
      by simpa using fun e he => h.management e (h3 e he)⟩, by simp⟩

theorem choosePortIf_quiet {s : State} (h : Quiet s) (due : Bool) (p : PortId) :
    Quiet (choosePortIf due s p) ∧ (choosePortIf due s p).image = s.image := by
  have same : ∀ x, Quiet (s.setPort p x) ∧ (s.setPort p x).image = s.image := fun x =>
    ⟨⟨by simpa using h.held, by simpa using h.console, by simpa using h.image, by simpa using h.management⟩, by simp⟩
  unfold choosePortIf choosePort
  dsimp only
  repeat' split
  all_goals first | exact same _ | exact ⟨h, rfl⟩ | exact startClass_quiet h p

/-- The end of a command leaves the image unit, and starts no delivery and places no segment, where no line is held and no segment waits. -/
theorem settle_quiet (s : State) {t : State} (h : Quiet t) :
    (settle s t).image = t.image ∧ (settle s t).forward.console = [] ∧ (settle s t).forward.image = [] := by
  unfold settle showStreams showRing showAxes handSources settleQueues
  simp only [State.setConsole_image, State.setTrip_image, State.setImage_image, State.setConsole_forward, State.setTrip_forward,
    State.setImage_forward]
  rw [placeSegment_quiet h 0, placeSegment_quiet h 1]
  generalize choiceDue s t .a = a
  generalize choiceDue s _ .b = b
  obtain ⟨h1, e1⟩ := choosePortIf_quiet h a .a
  obtain ⟨h2, e2⟩ := choosePortIf_quiet h1 b .b
  refine ⟨?_, h2.console, h2.image⟩
  rw [e2, e1]
  rcases arbitrate_cases t.image (choosePortIf b (choosePortIf a t .a) .b).now with h' | ⟨i, _, _, hn, _⟩
  · exact h'
  · exfalso
    have hf := List.find?_some hn
    simp only [beq_iff_eq, Bool.and_eq_true, decide_eq_true_eq] at hf
    have := h.held i (by rw [hf.1]; decide)
    omega

/-! ### The restart of every context (R97, R100, R117, R137) -/

theorem ctx_setCtx (u : ImageUnit) (i j : Nat) (c : StreamContext) (h : i < 8) :
    (u.setCtx i c).ctx j = if j = i then c else u.ctx j := by
  unfold ImageUnit.setCtx ImageUnit.ctx
  split
  · next e => subst e; exact Table.getD_set_same _ _ _ _ h
  · next e => exact Table.getD_set_other _ _ _ _ _ e

/-- The contexts below `n` that run in `s` have been restarted in `t` (R100): no line and nothing in progress, a delivery of one of them
aborted and line-valid released after its word, the marks of their search cleared; all else of the image and mark units is as it was. -/
structure RestartedBelow (n : Nat) (s t : State) : Prop where
  ctx : ∀ i, i < 8 → t.image.ctx i =
    if i < n ∧ (s.image.ctx i).record.mode ≠ .off then { s.image.ctx i with
      work := {}
      counters := if (s.image.delivery.map fun d => d.ctx) = some i
        then { (s.image.ctx i).counters with deliveryAborted := bump (s.image.ctx i).counters.deliveryAborted }
        else (s.image.ctx i).counters }
    else s.image.ctx i
  image : t.image = { s.image with contexts := t.image.contexts, delivery := t.image.delivery, released := t.image.released }
  aborted : ∀ d, s.image.delivery = some d → d.ctx < n ∧ (s.image.ctx d.ctx).record.mode ≠ .off →
    t.image.delivery = none ∧ t.image.released = (d.wordEnd s.now).or s.image.released
  goesOn : (∀ d, s.image.delivery = some d → ¬(d.ctx < n ∧ (s.image.ctx d.ctx).record.mode ≠ .off)) →
    t.image.delivery = s.image.delivery ∧ t.image.released = s.image.released
  mark : ∀ i m, s.mark.entries.get? i = some m → t.mark.entries.get? i =
    if i < n ∧ (s.image.ctx i).record.mode ≠ .off then some m.restarted else some m
  management : t.forward.management = s.forward.management
  console : t.forward.console = s.forward.console
  segments : s.forward.image = [] → t.forward.image = []
  now : t.now = s.now

theorem RestartedBelow.step {n : Nat} (hn : n < 8) {s t : State} (h : RestartedBelow n s t) :
    RestartedBelow (n + 1) s (restartContext t n) := by
  have hc := h.ctx n hn
  rw [if_neg (by omega)] at hc
  unfold restartContext
  by_cases hm : (t.image.ctx n).record.mode = .off
  · rw [if_pos hm]
    have hm' := hm
    rw [hc] at hm'
    have key : ∀ i, (i < n + 1 ∧ (s.image.ctx i).record.mode ≠ .off) ↔ (i < n ∧ (s.image.ctx i).record.mode ≠ .off) := by
      intro i
      by_cases hi : i = n
      · subst hi; simp [hm']
      · have : i < n + 1 ↔ i < n := by omega
        rw [this]
    exact ⟨by simpa only [key] using h.ctx, h.image, by simpa only [key] using h.aborted, by simpa only [key] using h.goesOn,
      by simpa only [key] using h.mark, h.management, h.console, h.segments, h.now⟩
  · rw [if_neg hm]
    have hm' := hm
    rw [hc] at hm'
    have hdel : t.image.delivery.filter (fun d => d.ctx == n) = s.image.delivery.filter (fun d => d.ctx == n) := by
      cases hd : s.image.delivery with
      | none => rw [(h.goesOn (by simp [hd])).1, hd]
      | some d =>
        by_cases hx : d.ctx < n ∧ (s.image.ctx d.ctx).record.mode ≠ .off
        · rw [(h.aborted d hd hx).1]
          have : d.ctx ≠ n := by omega
          simp [this, Option.filter]
        · rw [(h.goesOn (by intro d' hd'; rw [hd] at hd'; cases hd'; exact hx)).1, hd]
    refine ⟨?_, ?_, ?_, ?_, ?_, h.management, h.console, ?_, h.now⟩
    · intro i hi
      simp only [State.setMark_image, State.setForward_image, State.setImage_image, ImageUnit.restart]
      show (t.image.setCtx n _).ctx i = _
      rw [ctx_setCtx _ _ _ _ hn, hdel]
      by_cases e : i = n
      · subst e
        rw [if_pos rfl, hc, if_pos (⟨by omega, hm'⟩ : i < i + 1 ∧ _)]
        cases hd : s.image.delivery with
        | none => simp
        | some d => by_cases hx : d.ctx = i <;> simp [hx, Option.filter]
      · rw [if_neg e, h.ctx i hi]
        congr 1
        simp only [eq_iff_iff, and_congr_left_iff]; intro _; omega
    · simp only [State.setMark_image, State.setForward_image, State.setImage_image, ImageUnit.restart, ImageUnit.setCtx]
      rw [h.image]
    · intro d hd hx
      simp only [State.setMark_image, State.setForward_image, State.setImage_image, ImageUnit.restart]
      rw [hdel, hd]
      by_cases e : d.ctx = n
      · have h2 := h.goesOn (by intro d' hd'; rw [hd] at hd'; cases hd'; omega)
        simp [e, h.now, h2, Option.filter]
      · simp [e, h.aborted d hd ⟨by omega, hx.2⟩, Option.filter]
    · intro hx
      have h2 := h.goesOn fun d hd hh => hx d hd ⟨by omega, hh.2⟩
      simp only [State.setMark_image, State.setForward_image, State.setImage_image, ImageUnit.restart]
      rw [hdel]
      cases hd : s.image.delivery with
      | none => simp [h2, hd]
      | some d =>
        have : d.ctx ≠ n := by
          intro e; apply hx d hd; rw [e]; exact ⟨by omega, hm'⟩
        simp [this, h2, hd, Option.filter]
    · intro i m hi
      simp only [State.setMark_mark]
      have h0 := h.mark i m hi
      by_cases e : i = n
      · subst e
        rw [if_neg (by omega)] at h0
        rw [if_pos ⟨by omega, hm'⟩]
        unfold Table.modify
        rw [h0]
        have : i < 2 := by
          by_contra hh
          rw [Table.get?_of_ge _ _ (by omega)] at hi
          cases hi
        exact Table.get?_set_same _ _ _ this
      · rw [Table.get?_modify_other _ _ _ _ e, h0]
        congr 1
        simp only [eq_iff_iff, and_congr_left_iff]; intro _; omega
    · intro hh
      simp [ForwardUnit.removeSegment, h.segments hh]

/-- All that the restart of every context does (R97, R182). -/
theorem restartAll_spec (s : State) : RestartedBelow 8 s (restartAll s) := by
  have h0 : RestartedBelow 0 s s := ⟨by simp, rfl, by simp, by simp, by simp, rfl, rfl, id, rfl⟩
  have h8 := ((((((((h0.step (by decide)).step (by decide)).step (by decide)).step (by decide)).step (by decide)).step
    (by decide)).step (by decide)).step (by decide))
  unfold restartAll
  rw [show List.range 8 = [0, 1, 2, 3, 4, 5, 6, 7] from rfl]
  simp only [List.foldl_cons, List.foldl_nil]
  exact h8

/-! ### A failed attempt (R186) -/

theorem rate_reduced (n : Nat) : ((if n ≤ 3 then Rate.full else .reduced) == .reduced) = decide (3 < n) := by
  by_cases hn : n ≤ 3
  · rw [if_pos hn, decide_eq_false (by omega)]; rfl
  · rw [if_neg hn, decide_eq_true (by omega)]; rfl

/-- All that the failure of an attempt does to the link. -/
theorem failAttempt_spec (l : Link) (now : Time) (h : l.state = .acquire) : AttemptFailed l (l.failAttempt now) now := by
  unfold AttemptFailed Link.failAttempt
  refine ⟨fun h8 => ?_, fun h8 => ?_⟩
  · cases l; simp_all [retryTime, BEq.beq]
  · have : ¬8 ≤ l.attempt := by omega
    simp only [this, if_false, Link.startAttempt, attemptRate, lockTime]
    cases l
    simp_all only [Link.mk.injEq, PortCounters.mk.injEq, true_and, and_true]
    refine ⟨?_, ?_⟩
    · rw [rate_reduced]
    · rw [Bool.decide_and, Bool.decide_eq_false]
      rfl

end Sys2Proof.Machine
end

