-- ==== Sys2Proof/WellFormed.lean ====
section
/-!
DEFINITION. Which commands can occur with their operands: the lengths of what the lines carry, the time a console record takes,
and that a WRITE row comes with a field its row is about. Every meaning is defined on ill-formed commands too.
-/
namespace Sys2Proof

/-- A frame's bytes: at least the eight of a header, at most 12 more than the largest payload length a header can spell. -/
def wellFormedFrame (bytes : List Byte) : Bool := 8 ≤ bytes.length && bytes.length ≤ 65547

/-- Bytes on the answer pair of the drive link: a record of eight or a part of one (R47). -/
def wellFormedActual (bytes : List Byte) : Bool := 1 ≤ bytes.length && bytes.length ≤ 8

/-- A console record: two bytes of length, what they count, a CRC-16 (R173), at 160 ns or more for each byte (50 Mbit/s). -/
def wellFormedRecord (span : Nat) (bytes : List Byte) : Bool :=
  4 ≤ bytes.length && bytes.length ≤ 65539 && 160 * bytes.length ≤ span

/-- An identity record has four bytes (R173). -/
def wellFormedIdentity (bytes : List Byte) : Bool := bytes.length == 4

/-- A WRITE row that is about the fields `names` asks for: its data names one of them, or is too short. -/
def namesOwn {α : Type} (fields : Option α) (names : α → Bool) : Bool := fields.all names

/-- The command can occur with these operands. -/
def wellFormed : Instr → Bool
  | .powerOnReset _ _ => true
  | .nodeResetBegin _ => true
  | .frameArrival _ _ bytes => wellFormedFrame bytes
  | .substituteCycle => true
  | .masterCycleEvent => true
  | .outputInstant => true
  | .setpointRecordSent => true
  | .answerWindowClose => true
  | .actualRecord _ bytes => wellFormedActual bytes
  | .tripInputChange _ _ _ => true
  | .tripInputHoldExpiry _ => true
  | .tripEvaluation _ _ => true
  | .triggerPulse _ => true
  | .lineValidRise _ _ => true
  | .captureComplete _ _ _ _ => true
  | .captureTimeout _ _ _ => true
  | .deliveryEnd _ => true
  | .consoleRecordIn _ span bytes => wellFormedRecord span bytes
  | .recordRouting _ => true
  | .consoleSendStart _ => true
  | .consoleSendEnd _ => true
  | .consoleHoldChange _ _ => true
  | .portFrameEnd _ => true
  | .listenTimerExpiry => true
  | .claimTimerExpiry => true
  | .lockWatchdogExpiry _ => true
  | .retryTimerExpiry _ => true
  | .wordLockGained _ _ => true
  | .identityRecordIn _ _ bytes => wellFormedIdentity bytes
  | .lockLost _ _ => true
  | .read _ => true
  | .readClear _ => true
  | .write _ _ => true
  | .nodeSettingsWrite _ fields => namesOwn fields (fun w => w.cycle != {})
  | .masterJumpClear _ fields => namesOwn fields (fun w => w.jumpFlag.isSome || w.jumpMask.isSome)
  | .imagePortSettingWrite _ fields => namesOwn fields (fun w => w.direction.isSome || w.tap.isSome)
  | .allowanceSettingWrite _ fields => namesOwn fields (fun w => w.allowance.isSome || w.consoleCap.isSome)
  | .priorityWrite _ fields => namesOwn fields (fun w => w.priority.isSome)
  | .writePermitMaskWrite _ fields => namesOwn fields (fun w => w.permit.isSome)
  | .axisWrite _ _ => true
  | .offsetWrite _ fields => namesOwn fields (fun w => w.offset.isSome || w.target.isSome)
  | .cmaxWrite _ fields => namesOwn fields (fun w => w.corrMax.isSome)
  | .axisFlagClear _ fields => namesOwn fields (fun w => w.clear.isSome)
  | .axisMaskWrite _ fields => namesOwn fields (fun w => w.mask.isSome)
  | .actionWrite _ _ => true
  | .streamWrite _ fields => namesOwn fields (fun w => w.mode.all Option.isNone)
  | .streamModeOn _ fields => namesOwn fields (fun w => w.mode == some (some .source) || w.mode == some (some .sink))
  | .streamModeOff _ fields => namesOwn fields (fun w => w.mode == some (some .off))
  | .markWrite _ _ => true
  | .tileWrite _ _ => true
  | .portEnableWrite _ _ => true
  | .tripReset _ => true
  | .tripCommit _ => true
  | .enable _ => true
  | .engage _ => true
  | .stop _ => true
  | .disable _ => true
  | .release _ => true
  | .setSpeed _ => true
  | .streamRestart _ => true
  | .retrain _ => true
  | .ringRestart _ => true
  | .nodeReset _ => true
  | .lineValidFall _ _ => true
  | .unknownRequestKind _ => true

end Sys2Proof
end

