-- ==== Sys2Proof/Tests/Slice0.lean ====
section
/-!
SUPPORT. The author's own tests: one ill-formed command for each check of WellFormed; the worked sequences of the manual, each
test naming the chapter its figures come from; and, for every statement with hypotheses, a witness `meets_<Statement>` that
meets them.
-/
namespace Sys2Proof.Tests
open Sys2Proof Sys2Proof.Machine

set_option maxRecDepth 20000
set_option Elab.async false

/-! ### Small states -/

/-- Node `n` right after a power-on reset. -/
def node (n : BitVec 6) : State := State.afterReset 0 n 0xFF 0 false []

/-- A link that is UP. -/
def upLink : Link := { state := .up, beenUp := true, watchdog := none }

/-- Node `n` in a closed ring. -/
def ringNode (n : BitVec 6) : State :=
  { node n with
    forward := { (node n).forward with ring := .ring }
    portA := { link := upLink }
    portB := { link := upLink } }

/-- A ring node whose cycle unit is SYNCED since 1,000 µs, with the next copy due at 1,500 µs. -/
def follower (n : BitVec 6) : State :=
  { ringNode n with
    now := 1000000
    cycle := { sync := .synced, number := 40, numberOrigin := .real, lastArrival := 1000000, expected := 1500000 }
    forward := { (ringNode n).forward with horizon := 1498000 } }

/-- A ring node that is master. -/
def masterNode (n : BitVec 6) : State :=
  { follower n with election := { state := .master, priority := 9 } }

/-- Axis `i` of the node holds the entry `e`. -/
def withAxis (s : State) (i : Nat) (e : AxisEntry) : State := s.setAxis { s.axis with entries := s.axis.entries.set i e }

/-- Stream context `i` of the node is `c`. -/
def withCtx (s : State) (i : Nat) (c : StreamContext) : State := s.setImage (s.image.setCtx i c)

/-- A request of the node's own console, as tag 7. -/
def request (s : State) (kind item index : Byte) (data : List Byte) : Request :=
  ⟨true, s.addressByte, 7, kind, item, index, data⟩

/-- That request alone in the agent's queue. -/
def asked (s : State) (kind item index : Byte) (data : List Byte) : State :=
  s.setAgent { s.agent with queue := [request s kind item index data] }

/-- What `f` reads in the state after the command; none if it does not answer a next state. -/
def after {α : Type} (c : Instr) (s : State) (f : State → α) : Option α :=
  match exec c s with
  | .next t => some (f t)
  | _ => none

/-- The status byte of the last record in the reply queue. -/
def lastStatus (s : State) : Option Byte :=
  match s.console.replies.getLast? with
  | some (.answer _ _ st _ _) => some st
  | _ => none

/-- The extended position impression:phase. -/
def pos (impression phase : Nat) : ExtPos := BitVec.ofNat 40 (impression * 16777216 + phase)

def axisOf (s : State) (i : Nat) : AxisEntry := s.axis.entries.getD i {}

/-! ### WellFormed refuses what cannot occur -/

theorem test_wf_frame_short : wellFormed (.frameArrival 0 .a [1, 2, 3, 4, 5, 6, 7]) = false := by decide
theorem test_wf_actual_long : wellFormed (.actualRecord 0 [1, 2, 3, 4, 5, 6, 7, 8, 9]) = false := by decide
theorem test_wf_actual_empty : wellFormed (.actualRecord 0 []) = false := by decide
theorem test_wf_record_short : wellFormed (.consoleRecordIn 0 640 [0, 1, 2]) = false := by decide
theorem test_wf_record_too_fast : wellFormed (.consoleRecordIn 0 639 [0, 0, 1, 2]) = false := by decide
theorem test_wf_identity_length : wellFormed (.identityRecordIn 0 .b [5, 0, 1]) = false := by decide
theorem test_wf_node_settings : wellFormed (.nodeSettingsWrite 0 (some {})) = false := by decide
theorem test_wf_master_jump : wellFormed (.masterJumpClear 0 (some {})) = false := by decide
theorem test_wf_image_port : wellFormed (.imagePortSettingWrite 0 (some {})) = false := by decide
theorem test_wf_allowance : wellFormed (.allowanceSettingWrite 0 (some {})) = false := by decide
theorem test_wf_priority : wellFormed (.priorityWrite 0 (some {})) = false := by decide
theorem test_wf_permit : wellFormed (.writePermitMaskWrite 0 (some {})) = false := by decide
theorem test_wf_offset : wellFormed (.offsetWrite 0 (some {})) = false := by decide
theorem test_wf_cmax : wellFormed (.cmaxWrite 0 (some {})) = false := by decide
theorem test_wf_flag_clear : wellFormed (.axisFlagClear 0 (some {})) = false := by decide
theorem test_wf_axis_mask : wellFormed (.axisMaskWrite 0 (some {})) = false := by decide
theorem test_wf_stream_write : wellFormed (.streamWrite 0 (some { mode := some (some .off) })) = false := by decide
theorem test_wf_mode_on : wellFormed (.streamModeOn 0 (some { mode := some (some .off) })) = false := by decide
theorem test_wf_mode_off : wellFormed (.streamModeOff 0 (some {})) = false := by decide

/-! ### The wire (R173) -/

/-- The check value of the CRC-16 of R173 over the digits 1 to 9, from the CRC catalogues: 29B1h. -/
theorem test_crc16 : crc16 [49, 50, 51, 52, 53, 54, 55, 56, 57] = 0x29B1 := by decide +kernel

/-- The check value of the CRC-32 over the same digits: CBF43926h. -/
theorem test_crc32 : crc32 [49, 50, 51, 52, 53, 54, 55, 56, 57] = 0xCBF43926 := by decide +kernel

/-- A setpoint record by hand: axis 3, ENABLED, STOP; tag 20; setpoint 1 and feed-forward -2. -/
theorem test_setpoint_record : (setpointRecord 20 ⟨3, true, true, 1, -2, 0, 0⟩).take 9 = [0x3C, 20, 0, 0, 0, 1, 0xFF, 0xFF, 0xFE] := by
  decide +kernel

/-- A written slot by hand: COASTING, ring LINE-B, 3 following, 1 faulted, context 1 full, channel 5 raised. -/
theorem test_slot : makeSlot .coasting .lineB 3 1 2 0x20 = 0xA203010200000020 := by decide

/-- A claim frame is 16 bytes long (chapter 11.3). -/
theorem test_claim_length : (Frame.own 5 .claim 0 (.bytes (claimPayload 5 6 1 .full))).length = 16 := by decide

/-- A word spells no command: the table gives its rows no bits. -/
theorem test_no_word : decodeTableWord 16 0x1234 = none ∧ (node 5).withFetchWord 16 0x1234 = node 5 := ⟨rfl, rfl⟩

/-- An empty queue idles. -/
theorem test_idle : step (node 5) = .next (node 5) := rfl

/-! ### The cycle (1.4.1, 1.6.1, 1.7.1) -/

/-- The follower of 1.4.1 after its second substitute: 42 SUBST, count 2, COASTING. -/
def coasting : State :=
  { follower 5 with
    now := 2062500
    cycle := { (follower 5).cycle with
      sync := .coasting, number := 42, numberOrigin := .substitute, substitutes := 2, expected := 2500000, coast := 6000
      vlast := 20000, mloc := pos 12 1040000 } }

/-- 1.4.1, at 2,562.5 µs: 43 SUBST, count 3, LOST, Vlast and step 14,000, Mloc 12:1,054,000. -/
theorem test_substitute_third :
    after .substituteCycle coasting (fun t => (t.now, t.cycle.number, t.cycle.sync, t.cycle.vlast, t.cycle.mloc))
      = some (2562500, 43, .lost, 14000, pos 12 1054000) := by decide +kernel

/-- A master without a cycle frame on the line: a substitute does not occur (R7). -/
theorem test_substitute_at_master :
    after .substituteCycle (masterNode 5) (fun t => t.cycle.number) = some 40 := by decide +kernel

/-- The payload of copy 47 of 1.4.1, from node 9. -/
def copy47 : List Byte :=
  writeCycle 47 .reduced .us500 9 (pos 12 1100000) 0 0 0 0 SlotArea.empty SlotArea.empty

/-- The follower of 1.4.1 at 4,062.5 µs, after six substitutes. -/
def lostNode : State :=
  { coasting with
    now := 4062500
    cycle := { coasting.cycle with
      sync := .lost, number := 46, substitutes := 3, expected := 4500000, vlast := 0, mloc := pos 12 1064000 } }

/-- 1.4.1, at 4,480 µs: copy 47 taken; 47 REAL, count 0, SYNCED, step 36,000, Mloc 12:1,100,000, not early. -/
theorem test_copy_after_loss :
    after (.frameArrival 417500 .a (Frame.own 9 .cycle 0 (.bytes copy47)).encode) lostNode (fun t => (t.cycle.number,
      t.cycle.sync, t.cycle.lastStep, t.cycle.mloc, t.cycle.counters.earlyCopy))
      = some (47, .synced, 36000, pos 12 1100000, 0) := by decide +kernel

/-- The master of 1.6.1 after the SET SPEED: V = 0, Vt = 10,000, a = 3,000, at 7:0. -/
def rampMaster : State :=
  { masterNode 1 with
    cycle := { (masterNode 1).cycle with mloc := pos 7 0, gen := ⟨pos 7 0, 0, 10000, 3000, 4096⟩ } }

/-- 1.6.1, cycle 1: V sent 3,000, position 7:3,000, one cycle frame handed to each port. -/
theorem test_master_ramp :
    after .masterCycleEvent rampMaster (fun t => (t.cycle.gen.v, t.cycle.gen.position, t.cycle.mloc, t.cycle.number,
      t.portA.sending.isSome, t.portB.sending.isSome)) = some (3000, pos 7 3000, pos 7 3000, 41, true, true) := by decide +kernel

/-- 1.6.1, a MASTER_STOP channel in view with dm = 4,096: V = 10,000 becomes 5,904, and Vt reads 0. -/
theorem test_master_stop :
    after .masterCycleEvent { rampMaster with
        cycle := { rampMaster.cycle with gen := ⟨pos 7 28000, 10000, 10000, 3000, 4096⟩, mloc := pos 7 28000 }
        trip := { rampMaster.trip with
          own := 1, view := 1, actions := rampMaster.trip.actions.set 0 { kind := .syncStop, masterStop := true } } }
      (fun t => (t.cycle.gen.v, t.cycle.gen.vt)) = some (5904, 0) := by decide +kernel

/-- 1.7.1: node 3 has channel 5 raised; one returned copy carries slots 1 to 4. -/
def returnedArea : SlotArea :=
  (((SlotArea.empty.set 0 (makeSlot .synced .ring 0 0 0 0)).set 1 (makeSlot .synced .ring 0 0 0 0)).set 2
    (makeSlot .synced .ring 0 0 0 0x20)).set 3 (makeSlot .synced .ring 0 0 0 0)

/-- 1.7.1, cycle event 901: the total 20h; then 902, with no returned copy, sends it again and counts the round lost. -/
theorem test_merge :
    let u : CycleUnit := { sentNumber := some 900, returned := [returnedArea] }
    u.merge.frameTotal = 0x20 ∧ u.merge.frameArea = returnedArea ∧ u.merge.counters.roundLost = 0 ∧
    u.merge.merge.frameTotal = 0x20 ∧ u.merge.merge.counters.roundLost = 1 := by decide +kernel

/-- Introduction 4.2: from 7:16,770,000 to 8:51,039 is +58,255. -/
theorem test_ext_diff : extDiff (pos 7 16770000) (pos 8 51039) = 58255 := by decide

/-! ### The axis table (2.2 to 2.6) -/

/-- Axis 4 of the worked sequence of 2.2. -/
def axis4 : AxisEntry :=
  { state := .follow, num := 3, den := 7, rem := 3, base := 1000000, offset := 500, target := 800, slew := 200, corr := -40,
    corrUsed := -40, corrMax := 100, decel := 10000 }

def axisFigures (e : AxisEntry) : Int × Int × BitVec 32 × Int × BitVec 32 × Int := (e.v, e.rem, e.base, e.offset, e.setpoint, e.feed)

/-- 2.2, cycle event 1. -/
theorem test_gear_first : axisFigures (axis4.compute 58255) = (24966, 6, 1024966, 700, 1025626, 25166) := by decide

/-- 2.2, cycle event 2. -/
theorem test_gear_second : axisFigures ((axis4.compute 58255).compute 58255) = (24967, 2, 1049933, 800, 1050693, 25067) := by decide

/-- 2.2, the negative steps -10, -1 and +1. -/
theorem test_gear_negative :
    let q (rem step : Int) : Int × Int := let x := ({ axis4 with rem := rem } : AxisEntry).compute step; (x.v, x.rem)
    q 2 (-10) = (-4, 0) ∧ q 0 (-1) = (-1, 4) ∧ q 4 1 = (1, 0) := by decide

/-- 2.2, saturation: N = 1,000 and a step of 10,000; S advances by the whole 10,000,000. -/
theorem test_saturation :
    let x := ({ state := .follow, num := 1000 } : AxisEntry).compute 10000
    x.feed = 8388607 ∧ x.flags.sat = true ∧ x.base = 10000000 := by decide

/-- The stop ramp: 24,967, 14,967, 4,967, then 0 and STOPPED with S = 1,069,867. -/
theorem test_stop_ramp :
    let e := { (axis4.compute 58255).compute 58255 with state := .stopping }
    (e.compute 58255).v = 14967 ∧ ((e.compute 58255).compute 0).feed = 4967 ∧
    (((e.compute 58255).compute 0).compute 0).state = .stopped ∧ (((e.compute 58255).compute 0).compute 0).base = 1069867 ∧
    (((e.compute 58255).compute 0).compute 0).rem = 2 := by decide

/-- Axis 9 of "engaging from DISABLED", with the drive at 5,000,120 when the ENGAGE is taken. -/
def axis9 : AxisEntry :=
  { state := .disabled, num := 3, den := 7, offset := 800, target := 800, corr := -40, corrUsed := -40, corrMax := 40,
    base := 4999240, setpoint := 5000000, lastActual := some 5000120 }

/-- ENGAGE from DISABLED: S becomes 4,999,360, and the answer is OK. -/
theorem test_engage :
    after (.engage 0) (asked (withAxis (follower 5) 9 axis9) 6 2 9 [2]) (fun t =>
      ((axisOf t 9).state, (axisOf t 9).base, lastStatus t)) = some (.follow, 4999360, some 0) := by decide +kernel

/-- The first computation after it, at a step of 5: q = 2, R = 1, P_out = 5,000,122. -/
theorem test_engage_then_follow : axisFigures (axis9.engage.compute 5) = (2, 1, 4999362, 800, 5000122, 2) := by decide

/-- An ENGAGE at an UNSYNCED node is refused with STATE (R36). -/
theorem test_engage_unsynced :
    after (.engage 0) (asked (withAxis (ringNode 5) 9 axis9) 6 2 9 [2]) (fun t => ((axisOf t 9).state, lastStatus t))
      = some (.disabled, some 3) := by decide +kernel

/-- ENABLE takes an axis from OFF to DISABLED (R35). -/
theorem test_enable :
    after (.enable 0) (asked (ringNode 5) 6 2 4 [1]) (fun t => ((axisOf t 4).state, lastStatus t)) = some (.disabled, some 0) := by
  decide +kernel

/-- STOP takes axis 4 to STOPPING with v equal to its last q (R37). -/
theorem test_stop :
    after (.stop 0) (asked (withAxis (follower 5) 4 (axis4.compute 58255)) 6 2 4 [3]) (fun t =>
      ((axisOf t 4).state, (axisOf t 4).v, lastStatus t)) = some (.stopping, 24966, some 0) := by decide +kernel

/-- DISABLE of an axis in FOLLOW (R38). -/
theorem test_disable :
    after (.disable 0) (asked (withAxis (follower 5) 4 axis4) 6 2 4 [4]) (fun t =>
      ((axisOf t 4).state, (axisOf t 4).rem, lastStatus t)) = some (.disabled, 0, some 0) := by decide +kernel

/-- RELEASE of an axis in FOLLOW is refused with STATE (R39). -/
theorem test_release_refused :
    after (.release 0) (asked (withAxis (follower 5) 4 axis4) 6 2 4 [5]) (fun t => ((axisOf t 4).state, lastStatus t))
      = some (.follow, some 3) := by decide +kernel

/-- RELEASE of an axis in DISABLED makes it OFF and its last actual absent (R39). -/
theorem test_release :
    after (.release 0) (asked (withAxis (follower 5) 9 axis9) 6 2 9 [5]) (fun t =>
      ((axisOf t 9).state, (axisOf t 9).lastActual, lastStatus t)) = some (.off, none, some 0) := by decide +kernel

/-- A gear denominator of 0 is refused with RANGE (R23). -/
theorem test_axis_write_range :
    after (.axisWrite 0 (some { den := some 0 })) (asked (ringNode 5) 2 2 4 []) lastStatus = some (some 2) := by decide +kernel

/-- A gear written in FOLLOW is refused with STATE (R23). -/
theorem test_axis_write_state :
    after (.axisWrite 0 (some { num := some 2 })) (asked (withAxis (follower 5) 4 axis4) 2 2 4 []) lastStatus = some (some 3) := by
  decide +kernel

/-- In FOLLOW a WRITE of the target offset leaves the applied offset to slew (R24). -/
theorem test_offset_write :
    after (.offsetWrite 0 (some { target := some 900 })) (asked (withAxis (follower 5) 4 axis4) 2 2 4 []) (fun t =>
      ((axisOf t 4).offset, (axisOf t 4).target, lastStatus t)) = some (500, 900, some 0) := by decide +kernel

/-- Axis 6 of 2.6 after the third correction frame. -/
def axis6 : AxisEntry := { state := .follow, corr := 1200, corrUsed := 1800, corrMax := 2000 }

/-- 2.6: a WRITE of Cmax = 1,000 with C = 1,200 clamps C to 1,000 at once and sets CLAMP (R25). -/
theorem test_cmax_write :
    after (.cmaxWrite 0 (some { corrMax := some 1000 })) (asked (withAxis (follower 5) 6 axis6) 2 2 6 []) (fun t =>
      ((axisOf t 6).corr, (axisOf t 6).flags.clamp, lastStatus t))
      = some (1000, true, some 0) := by decide +kernel

/-- An axis in OFF with SILENT and SAT set. -/
def flagged : AxisEntry := { flags := { silent := true, sat := true } }

/-- The flag field clears the flags marked in it and no other (R41). -/
theorem test_flag_clear :
    after (.axisFlagClear 0 (some { clear := some { silent := true } })) (asked (withAxis (ringNode 5) 4 flagged) 2 2 4 []) (fun t => (axisOf t 4).flags) = some { sat := true } := by
  decide +kernel

/-- A mask cleared while its flag is set hands source 12 to the trip unit (R42). -/
theorem test_axis_mask_write :
    after (.axisMaskWrite 0 (some { mask := some {} })) (asked (withAxis (ringNode 5) 4 flagged) 2 2 4 [])
      (fun t => ((axisOf t 4).mask, (handedSources t.trip).getLsbD 12)) = some ({}, true) := by decide +kernel

/-- 2.6, the three correction frames at axis 6. -/
theorem test_corrections :
    let e : AxisEntry := { state := .follow, corrStep := 500, corrMax := 2000, corr := 1800, corrUsed := 1800 }
    let u : AxisUnit := { entries := (Table.replicate 16 {}).set 6 e }
    let one (x : AxisUnit) := ((x.entries.getD 6 {}).corr, (x.entries.getD 6 {}).flags.clamp, x.counters.taken, x.counters.clamped)
    one (u.correct 6 900) = (2000, true, 1, 1) ∧ one ((u.correct 6 900).correct 6 (-300)) = (1700, true, 2, 1) ∧
    one (((u.correct 6 900).correct 6 (-300)).correct 6 (-2600)) = (1200, true, 3, 2) := by decide +kernel

/-- R23: a stop group written in FOLLOW is used from the next cycle event: a trip of the new group stops the axis only there. -/
theorem test_group_from_next_event :
    let s := withAxis (follower 3) 4 { axis4 with group := 1 }
    let x := { s with trip := { s.trip with own := 0x20, actions := s.trip.actions.set 5 ⟨.axisStop, 2, 0, false⟩ } }
    (axisOf (formView x) 4).state = .follow ∧
    after .substituteCycle (formView x) (fun t => ((axisOf t 4).state, (axisOf t 4).groupInUse)) = some (.stopped, 1) := by
  decide +kernel

/-! ### The drive link (3.2, 3.5) -/

/-- The poll of the worked sequence of 3.2 at axis `a`, with the axes behind it. -/
def polling (phase : PollPhase) (a : Handed) (rest : List Handed) : State :=
  let s := follower 5
  let entries := (((s.axis.entries.set 0 { state := .follow }).set 3 { state := .follow, miss := 2 }).set 5
    { state := .disabled }).set 11 { state := .stopped, ferrLimit := 300 }
  { s with
    axis := { s.axis with entries := entries }
    drive := { s.drive with poll := some ⟨20, a, phase, rest⟩ } }

def handed0 : Handed := ⟨0, true, false, 0, 0, 0, 0⟩
def handed3 : Handed := ⟨3, true, false, 0, 0, 0, 0⟩
def handed5 : Handed := ⟨5, false, false, 0, 0, 0, 0⟩
def handed11 : Handed := ⟨11, true, true, 2070627, 0, 0, 0⟩

/-- 3.2, at 4.4 µs: the record to axis 0 ends and its window opens for 10 µs. -/
theorem test_window_opens :
    after .setpointRecordSent (polling (.sending 1004400) handed0 [handed3]) (fun t => (t.now, t.drive.poll))
      = some (1004400, some ⟨20, handed0, .window 1014400, [handed3]⟩) := by decide +kernel

/-- 3.2, at 23.4 µs: the window of axis 3 closes empty: miss count 3, SILENT, source 11; the record to axis 5 starts. -/
theorem test_window_closes :
    after .answerWindowClose (polling (.window 1023400) handed3 [handed5, handed11]) (fun t => ((axisOf t 3).miss,
      (axisOf t 3).flags.silent, t.drive.counters.noAnswer, t.drive.poll, (handedSources t.trip).getLsbD 11))
      = some (3, true, 1, some ⟨20, handed5, .sending 1027800, [handed11]⟩, true) := by decide +kernel

/-- 3.2, at 41.4 µs: drive 11 answers 2,070,300; the difference 327 is above 300: FERR, source 19 inactive, poll complete. -/
theorem test_following_error :
    after (.actualRecord 4600 (withCrc16 ([0xB2, 20] ++ beBytes 4 2070300))) (polling (.window 1046800) handed11 []) (fun t =>
      ((axisOf t 11).flags.ferr, (axisOf t 11).lastActual, t.drive.counters.followingError, t.drive.poll,
        (handedSources t.trip).getLsbD 19)) = some (true, some 2070300, 1, none, false) := by decide +kernel

/-- 3.2, at 32.4 µs: a record of drive 5 with tag 19 is a miss for wrong tag. -/
theorem test_wrong_tag :
    after (.actualRecord 4600 (withCrc16 ([0x52, 19] ++ beBytes 4 7))) (polling (.window 1037800) handed5 [handed11]) (fun t =>
      ((axisOf t 5).miss, t.drive.counters.wrongTag, (axisOf t 5).lastActual)) = some (1, 1, none) := by decide +kernel

/-- 3.5, at 220.0 µs: the record to axis 15 is cut off; abandoned +1, poll overrun; the record to axis 0 starts. -/
theorem test_overrun :
    let h15 : Handed := ⟨15, false, false, 0, 0, 0, 0⟩
    let s := withAxis (polling (.sending 1220400) h15 []) 15 { state := .disabled, miss := 2 }
    after .outputInstant { s with drive := { s.drive with next := some ⟨1220000, 21, [handed0]⟩ } } (fun t => (t.now,
      (axisOf t 15).miss, t.drive.counters.abandoned, t.drive.counters.pollOverrun, t.drive.poll))
      = some (1220000, 3, 1, true, some ⟨21, handed0, .sending 1224400, []⟩) := by decide +kernel

/-- R26, R35, R49: an axis released and enabled again since its values were handed over is not polled with them. -/
theorem test_released_not_polled :
    let s := withAxis (polling (.window 0) handed5 []) 5 { state := .disabled, offs := 1 }
    after .outputInstant { s with drive := { s.drive with poll := none, next := some ⟨1220000, 21, [handed5, handed11]⟩ } } (fun t =>
      (t.drive.poll, (axisOf t 5).miss)) = some (some ⟨21, handed11, .sending 1224400, []⟩, 0) := by decide +kernel

/-- R57: an axis disabled and engaged again since its values were handed over gets no check of its following error. -/
theorem test_disabled_since_polled :
    let s := withAxis (polling (.window 1046800) handed11 []) 11 { state := .follow, ferrLimit := 300, disables := 1 }
    after (.actualRecord 4600 (withCrc16 ([0xB2, 20] ++ beBytes 4 2070300))) s (fun t =>
      ((axisOf t 11).flags.ferr, (axisOf t 11).lastActual, t.drive.counters.followingError)) = some (false, some 2070300, 0) := by
  decide +kernel

/-! ### The trip unit (4.2 to 4.5, 5.5) -/

/-- A program of the terms given. -/
def program (l : List Term) : Program :=
  { length := l.length, terms := (l.foldl (fun (a : Table Term 128 × Nat) t => (a.1.set a.2 t, a.2 + 1)) (Table.replicate 128 {}, 0)).1 }

/-- The six terms of "a program at work" of 4.2. -/
def workTerms : List Term :=
  [⟨0, false, .load, true, some 2⟩, ⟨11, false, .load, false, none⟩, ⟨12, false, .or, true, some 5⟩,
   ⟨37, false, .load, false, none⟩, ⟨28, false, .and, false, none⟩, ⟨24, true, .and, true, some 9⟩]

/-- The node of 4.2, with the source changes given waiting. -/
def tripNode (sources : BitVec 64) (own : Marks) (changes : List SourceChange) : State :=
  let s := follower 5
  { s with trip := { s.trip with
      active := program workTerms, staging := program workTerms, sources := sources, own := own, view := own, changes := changes } }

/-- 4.2, first row: source 11 becomes active; rule B raises 5, and one trip frame with the word of channel 5 starts on each port. -/
theorem test_evaluation :
    after (.tripEvaluation 0 0) (tripNode 0 0 [⟨0x800, 0x800⟩]) (fun t => (t.trip.own, t.trip.seq, t.trip.view,
      t.portA.sending.map fun x => x.frame.data)) = some (0x20, 1, 0x20, some [1, 0, 0, 0, 0x20]) := by decide +kernel

/-- 4.2, third row: SILENT of axis 3 is cleared; channel 5 stays raised and no frame is sent. -/
theorem test_latch :
    after (.tripEvaluation 0 0) (tripNode 0x2000000800 0x20 [⟨0x800, 0⟩]) (fun t => (t.trip.own, t.trip.seq)) = some (0x20, 0) := by
  decide +kernel

/-- 4.3, the refused commit: rule D makes the cycle 5, 9, 5, and the lowest term on it is 3. -/
theorem test_commit_refused :
    let s := tripNode 0 0 []
    after (.tripCommit 0) (asked { s with trip := { s.trip with
        staging := program (workTerms ++ [⟨41, false, .load, true, some 5⟩]) } } 5 0 0 []) (fun t =>
      (t.trip.active.length, t.trip.counters.commitRefused, t.console.replies.getLast?))
      = some (6, 1, some (.answer 7 5 7 (.bytes [3]) false)) := by decide +kernel

/-- A commit of the program of 4.2 itself passes. -/
theorem test_commit :
    after (.tripCommit 0) (asked (tripNode 0 0 []) 5 0 0 []) (fun t => (t.trip.counters.commit, lastStatus t)) = some (1, some 0) := by
  decide +kernel

/-- 4.5: a TRIP RESET of 5 and 9 with source 12 active: own-raised word of channel 5, sequence 18, answer CAUSE with channel 5. -/
theorem test_trip_reset :
    let s := tripNode 0x22010001000 0x220 []
    after (.tripReset 0) (asked { s with trip := { s.trip with seq := 17 } } 4 0 0 [0, 0, 2, 0x20]) (fun t =>
      (t.trip.own, t.trip.seq, t.trip.blank.getD 5 0, t.trip.blank.getD 9 0, t.console.replies.getLast?))
      = some (0x20, 18, 2, 2, some (.answer 7 5 6 (.bytes [0, 0, 0, 0x20]) false)) := by decide +kernel

/-- Nodes 1 to 3 of 5.5: channel 5 is AXIS_STOP of group 0 with TO1 and MASTER_STOP. -/
def stopEntry : Action := ⟨.axisStop, 1, 2, true⟩

/-- 5.5, at 102.068 µs: node 3 takes the frame of node 2 with sequence 41: held at age 0, view +5, group 0 STOPPING, TO1 low. -/
theorem test_trip_frame :
    let s := withAxis (follower 3) 4 axis4
    after (.frameArrival 0 .a (Frame.own 2 .trip 0 (.bytes (tripPayload 41 0x20))).encode)
      { s with trip := { s.trip with actions := s.trip.actions.set 5 stopEntry } } (fun t => (t.trip.dedupe.getD 1 none,
        t.trip.held.getD 5 none, t.trip.view, (axisOf t 4).state, t.trip.outputs))
      = some (some 41, some 0, 0x20, .stopping, 2) := by decide +kernel

/-- 5.5, at 122.136 µs: the second copy is a duplicate. -/
theorem test_trip_duplicate :
    let u : TripUnit := { dedupe := (Table.replicate 62 none).set 1 (some 41) }
    (u.acceptFrame 2 41 0x20).counters.duplicate = 1 ∧ (u.acceptFrame 2 41 0x20).held = u.held := by decide +kernel

/-- 5.5: held 5 ages to 1 at the real cycle event without it in the total, and is confirmed and dropped by a total that has it. -/
theorem test_held_confirmed :
    let u : TripUnit := { held := (Table.replicate 32 none).set 5 (some 0) }
    let v := u.cycleEvent (some (0, 0x20))
    v.held.getD 5 none = some 1 ∧ (v.cycleEvent (some (0x20, 0))).held.getD 5 none = none ∧
    (v.cycleEvent (some (0x20, 0))).counters.heldConfirmed = 1 := by decide +kernel

/-- A trip input that goes low starts its 20 µs (R60). -/
theorem test_trip_input :
    after (.tripInputChange 1000 3 false) (node 5) (fun t => (t.trip.hold.getD 3 none, t.trip.filtered)) = some (some 21000, 0) := by
  decide +kernel

/-- The 20 µs over, the filtered level is active and source 3 is handed (R60). -/
theorem test_hold_expiry :
    let s := node 5
    after (.tripInputHoldExpiry 3) { s with trip := { s.trip with pins := 0xF7, hold := s.trip.hold.set 3 (some 21000) } } (fun t =>
      (t.now, t.trip.filtered, (handedSources t.trip).getLsbD 3)) = some (21000, 8, true) := by decide +kernel

/-- An ACTION write with SYNC_STOP and no MASTER_STOP is refused with RANGE (R88). -/
theorem test_action_write_refused :
    after (.actionWrite 0 (some { kind := some (some .syncStop) })) (asked (ringNode 5) 2 6 5 []) lastStatus = some (some 2) := by
  decide +kernel

/-- An ACTION write that assigns TO1 to a channel in view asserts it at once (R90). -/
theorem test_action_write :
    after (.actionWrite 0 (some { pins := some 2 })) (asked (tripNode 0 0x20 []) 2 6 5 []) (fun t => (t.trip.outputs, lastStatus t))
      = some (2, some 0) := by decide +kernel

/-! ### Images (6.1 to 8.3) -/

/-- 6.1: slot sizes 5 and 17, capacities 8 and 2. -/
theorem test_slot_size :
    ({ size := 40, length := 4096 } : StreamRecord).slotSize = 5 ∧ ({ size := 40, length := 4096 } : StreamRecord).capacity = 8 ∧
    ({ size := 36, length := 8192, pixel := 2 } : StreamRecord).slotSize = 17 ∧
    ({ size := 36, length := 8192, pixel := 2 } : StreamRecord).capacity = 2 := by decide

/-- The camera node of 6.1, context 0 on. -/
def camera : State :=
  withCtx (follower 5) 0 { record := { mode := .source, size := 40, length := 4096, destNode := 14 } }

/-- 6.1: context 1 of 36 blocks at base 38 is refused with RANGE; at base 40 it passes; with segment size 256 it is refused. -/
theorem test_regions :
    let w (base segment : Nat) : StreamWrite :=
      { mode := some (some .source), base := some base, size := some 36, length := some 8192, pixel := some 2
        destNode := some 14, segment := some segment }
    checkStreamWrite camera 1 (w 38 1024) = .range ∧ checkStreamWrite camera 1 (w 40 1024) = .ok ∧
    checkStreamWrite camera 1 (w 40 512) = .ok ∧ checkStreamWrite camera 1 (w 40 256) = .range := by decide +kernel

/-- 6.3: fourteen triggers, the first at 7:16,719,872 and 34.86 µs, the fifth at 175.48 µs, the last at 8:49,152 and 491.90 µs. -/
theorem test_triggers :
    let c := ({ record := { mode := .source, pitch := 8192 } } : StreamContext).select 0 500000 (pos 7 16711745) 116510
    c.work.triggers.length = 14 ∧ c.work.triggers.head? = some ⟨pos 7 16719872, 34860⟩ ∧
    c.work.triggers[4]? = some ⟨pos 7 16752640, 175480⟩ ∧ c.work.triggers[7]? = some ⟨pos 8 0, 280960⟩ ∧
    c.work.triggers.getLast? = some ⟨pos 8 49152, 491900⟩ ∧ c.counters.triggerOverrun = 0 := by decide +kernel

/-- Context 1 of 6.4: capacity 2, one line held, next line number 300, in a node that is not sending. -/
def fullRegion (held : Nat) (triggers : List Trigger) (capture : Option Capture) : State :=
  let s := withCtx (node 5) 1
    { record := { mode := .source, base := 40, size := 2, length := 16, destNode := 14 }
      work := { held := held, nextLine := 300, triggers := triggers, capture := capture } }
  { s with forward := { s.forward with image := [⟨Frame.own 5 .segment 14 (.bytes []), .segment 1⟩] } }

/-- 6.4, at 34.86 µs: trigger 1 takes number 300 and a capture starts. -/
theorem test_trigger :
    after (.triggerPulse 1) (fullRegion 1 [⟨pos 7 16719872, 34860⟩] none) (fun t => (t.now, (t.image.ctx 1).work.nextLine,
      (t.image.ctx 1).work.capture)) = some (34860, 301, some ⟨300, pos 7 16719872, 534860, false⟩) := by decide +kernel

/-- R105: the pulse on TRG1 alone, at 34.86 µs; none where the region is full. -/
theorem test_trigger_output :
    after (.triggerPulse 1) (fullRegion 1 [⟨pos 7 16719872, 34860⟩] none) (fun t => t.image.trigger.list) = some [none, some 34860] ∧
    after (.triggerPulse 1) (fullRegion 2 [⟨pos 7 16719872, 34860⟩] none) (fun t => t.image.trigger.list) = some [none, none] := by
  decide +kernel

/-- 6.4, at 70.02 µs: the region is full; trigger 2 takes its number, and capture overrun is counted. -/
theorem test_trigger_overrun :
    after (.triggerPulse 1) (fullRegion 2 [⟨pos 7 16728064, 70020⟩] none) (fun t => ((t.image.ctx 1).work.nextLine,
      (t.image.ctx 1).work.capture, (t.image.ctx 1).counters.captureOverrun)) = some (301, none, 1) := by decide +kernel

/-- 6.4, at 35.2 µs: line-valid rises, and the pixels are taken for line 300. -/
theorem test_line_valid :
    after (.lineValidRise 0 1) (fullRegion 1 [] (some ⟨300, pos 7 16719872, 534860, false⟩)) (fun t => (t.image.lineValid,
      (t.image.ctx 1).work.capture.map (·.intake))) = some (2, some true) := by decide +kernel

/-- 6.4, at 65.2 µs: the capture completes COMPLETE: held 2, lines captured +1, and the header stands in the slot. -/
theorem test_capture :
    after (.captureComplete 0 1 [] (List.replicate 16 9)) (fullRegion 1 [] (some ⟨300, pos 7 16719872, 534860, true⟩)) (fun t =>
      ((t.image.ctx 1).work.held, (t.image.ctx 1).counters.linesCaptured, t.image.memory.bytes 40960 10))
      = some (2, 1, [1, 44, 0, 7, 0xFF, 0x20, 0, 0, 0, 16]) := by decide +kernel

/-- 6.5: at the capture limit with no pixel the line is SHORT with 0 valid bytes. -/
theorem test_capture_timeout :
    after (.captureTimeout 1 [] []) (fullRegion 1 [] (some ⟨300, pos 7 16719872, 534860, false⟩)) (fun t => (t.now,
      (t.image.ctx 1).counters.captureTimeout, t.image.memory.bytes 40967 3)) = some (534860, 1, [1, 0, 0]) := by decide +kernel

/-- Line-valid falls while no capture takes its pixels. -/
theorem test_line_falls :
    let s := node 5
    after (.lineValidFall 0 0) { s with image := { s.image with lineValid := 3 } } (fun t => t.image.lineValid) = some 2 := by
  decide +kernel

/-- 6.5: 2,000 bytes in segments of 512 make 4, 1,200 make 3, and 0 make one. -/
theorem test_segment_count : segmentCount 2000 512 = 4 ∧ segmentCount 1200 512 = 3 ∧ segmentCount 0 512 = 1 := by decide

/-- 7.4, the six rounding cases. -/
theorem test_rounding :
    correctionFor 1200 64 = -300 ∧ correctionFor (-77) 10 = 3 ∧ correctionFor 25 128 = -13 ∧ correctionFor (-25) 128 = 13 ∧
    correctionFor 1 127 = 0 ∧ correctionFor 1048576 255 = -1044480 := by decide

/-- The mark record of 7.5. -/
def mark7 : MarkEntry :=
  { record := { enable := true, node := 14, axis := 3, phase := 200, window := 4096, first := 100, last := 163, dark := 60,
                minimum := 24, gain := 64 }
    search := { status := .locked } }

/-- 7.5: the distances of the first, third and fourth lines and the one behind the window. -/
theorem test_distances :
    windowDistance (pos 7 16771072) 200 = -6344 ∧ windowDistance (pos 7 16775168) 200 = -2248 ∧
    windowDistance (pos 8 0) 200 = -200 ∧ windowDistance (pos 8 6144) 200 = 5944 := by decide

/-- 7.5, the line at 8:0: 64 dark pixels, found, and a correction of +50. -/
theorem test_mark_found :
    let x := mark7.take (pos 8 0) (List.replicate 100 200 ++ List.replicate 64 10)
    x.2 = some 50 ∧ x.1.search.found = true ∧ x.1.search.lastDark = some 64 ∧ x.1.counters.marksFound = 1 := by decide +kernel

/-- 7.5, the fourth miss: LOST, and mark lost latched. -/
theorem test_mark_lost :
    let m : MarkEntry := { mark7 with search := { status := .locked, miss := 3, pending := true } }
    (m.take (pos 8 6144) []).1.search.status = .lost ∧ (m.take (pos 8 6144) []).1.search.miss = 4 ∧
    (m.take (pos 8 6144) []).1.counters.markLost = true := by decide +kernel

/-- A first column behind the last is refused with RANGE (R116). -/
theorem test_mark_write :
    after (.markWrite 0 (some { first := some 9, last := some 8 })) (asked (ringNode 5) 2 8 0 []) lastStatus = some (some 2) := by
  decide +kernel

/-- The sink of 8.2: line 119 closed, line 120 expected. -/
def sink2 : ImageUnit :=
  ({ direction := .deliver } : ImageUnit).setCtx 2
    { record := { mode := .sink, size := 6, length := 2000, originNode := 5, originCtx := 0 }
      work := { expectedLine := some 120 } }

/-- A segment of line `n` from context 0 of node 5 to context 2, with `len` pixel bytes. -/
def segment (n : BitVec 16) (index len : Nat) : Segment :=
  ⟨2, 0, n, index, index * 512, index == 0, index == 3, if index = 0 then pos 7 0 else 0, List.replicate len 0⟩

def fed (u : ImageUnit) (l : List Segment) : ImageUnit := l.foldl (fun v g => v.takeSegment 5 g) u

def sinkFigures (u : ImageUnit) : Option (BitVec 16) × Nat × Nat × Nat × Nat :=
  let c := u.ctx 2
  (c.work.expectedLine, c.work.held, c.work.write, c.counters.damagedLine, c.counters.linesReceived)

/-- Line 120 whole. -/
def line120 : List Segment := [segment 120 0 512, segment 120 1 512, segment 120 2 512, segment 120 3 464]

/-- 8.2, line 120: closed COMPLETE; expected 121, held 1, write 1. -/
theorem test_line_received : sinkFigures (fed sink2 line120) = (some 121, 1, 1, 0, 1) := by decide +kernel

/-- 8.2, line 121 with segment 1 lost: closed DAMAGED; expected 122, held 2, write 2. -/
theorem test_line_damaged :
    sinkFigures (fed sink2 (line120 ++ [segment 121 0 512, segment 121 2 512, segment 121 3 464])) = (some 122, 2, 2, 1, 1) := by
  decide +kernel

/-- R109, R111: a SHORT line in INTERLEAVED, where tap 1 gave two pixels beyond the first gap; the rest of the slot is zeros. -/
theorem test_short_interleaved :
    capturedBytes 1 .normal (linePixels .interleaved 0 8 [1, 2] [3, 4, 5, 6]) = [1, 3, 2, 4, 0, 0, 0, 0] := by decide +kernel

/-- 8.3: the last word of line 120 leaves; held 1, read 1, and the delivery of 121 starts, line-valid asserted with its first word. -/
theorem test_delivery_end :
    let u := fed sink2 (line120 ++ [segment 121 0 512, segment 121 2 512, segment 121 3 464])
    after (.deliveryEnd 0) { node 14 with image := { u with delivery := some ⟨2, 0, 30000⟩, lastServed := 2, direction := .deliver } }
      (fun t => (t.now, (t.image.ctx 2).work.held, (t.image.ctx 2).work.read, t.image.delivery.map (·.ctx), t.lineOut))
      = some (30000, 1, 1, some 2, true) := by
  decide +kernel

/-- R137: a delivery whose words began 50 ns before is aborted by a STREAM RESTART; its third word ends 10 ns later, and line-valid with
it. -/
theorem test_delivery_aborted :
    let u := fed sink2 line120
    let s := follower 14
    after (.streamRestart 0) (asked { s with image := { u with delivery := some ⟨2, s.now - 50, s.now + 30000⟩, direction := .deliver } } 8 7 2 [])
      (fun t => ((t.image.ctx 2).counters.deliveryAborted, t.image.released, t.lineOut, (t.elapse 10).lineOut))
      = some (1, some 1000010, true, false) := by
  decide +kernel

/-- A STREAM write of a base in OFF sets it (R98). -/
theorem test_stream_write :
    after (.streamWrite 0 (some { base := some 40 })) (asked (ringNode 5) 2 7 1 []) (fun t => ((t.image.ctx 1).record.base, lastStatus t))
      = some (40, some 0) := by decide +kernel

/-- 6.1: context 1 turned on at base 40. -/
theorem test_mode_on :
    let w : StreamWrite :=
      { mode := some (some .source), base := some 40, size := some 36, length := some 8192, pixel := some 2, destNode := some 14 }
    after (.streamModeOn 0 (some w)) (asked camera 2 7 1 []) (fun t => ((t.image.ctx 1).record.mode, lastStatus t)) = some (.source, some 0) := by
  decide +kernel

/-- A WRITE of OFF ends a context's work and releases its region (R100). -/
theorem test_mode_off :
    after (.streamModeOff 0 (some { mode := some (some .off) })) (asked (fullRegion 2 [⟨0, 9⟩] none) 2 7 1 []) (fun t =>
      ((t.image.ctx 1).record.mode, (t.image.ctx 1).work, t.forward.image)) = some (.off, {}, []) := by decide +kernel

/-- STREAM RESTART keeps the mode and starts the region anew (R100, R102). -/
theorem test_stream_restart :
    after (.streamRestart 0) (asked (fullRegion 2 [⟨0, 9⟩] none) 8 7 1 []) (fun t =>
      ((t.image.ctx 1).record.mode, (t.image.ctx 1).work, lastStatus t)) = some (.source, {}, some 0) := by decide +kernel

/-! ### The console (9.1 to 9.5) -/

/-- An EVENT record from the console joins the outbound record queue (R140). -/
theorem test_record_in :
    after (.consoleRecordIn 5000 1600 (InRecord.event 12 0x105 []).toBytes) (follower 3) (fun t => t.console.outbound)
      = some [.event 12 0x105 []] := by decide +kernel

/-- A record with a wrong CRC-16 is counted as bad (R140). -/
theorem test_bad_record :
    after (.consoleRecordIn 5000 1600 [0, 4, 2, 12, 1, 5, 0, 0]) (follower 3) (fun t => (t.console.outbound, t.console.counters.badRecord))
      = some ([], 1) := by decide +kernel

/-- 9.5: node 3 routes an EVENT record with destination 12 and code 0105h; the event frame of 14 bytes starts out of port B. -/
theorem test_routing :
    let s := follower 3
    after (.recordRouting 0) { s with console := { s.console with outbound := [.event 12 0x105 []] } } (fun t => (t.console.outbound,
      t.portB.sending.map fun x => (x.frame.kind, x.frame.dest, x.frame.length))) = some ([], some (.event, 12, 14)) := by decide +kernel

/-- 9.5: an event frame at node 12 with 32 events waiting: refused, with a refusal frame to node 3. -/
theorem test_event_refused :
    let s := follower 12
    after (.frameArrival 0 .a (Frame.own 3 .event 12 (.bytes (eventPayload 0x105 []))).encode)
      { s with console := { s.console with inbound := List.replicate 32 ⟨1, 1, []⟩ } } (fun t => (t.console.inbound.length,
        t.console.counters.eventRefusedFull, t.portB.sending.map fun x => (x.frame.dest, x.frame.data)))
        = some (32, 1, some (3, [12, 1, 5, 0])) := by decide +kernel

/-- Tile 17 of 9.4 waits behind tile 253. -/
def sendingNode : State :=
  let s := follower 7
  { s with console := { s.console with
      tiles := s.console.tiles.set 17 { state := .dirty, lastWriter := 5, version := some 41, content := .bytes [1] }
      systemQueue := [253]
      ordinaryQueue := [17] } }

/-- 9.4: TILE OUT 253 starts before tile 17. -/
theorem test_send_start :
    after (.consoleSendStart 0) sendingNode (fun t => (t.console.systemQueue, t.console.ordinaryQueue,
      t.console.sending.map fun | .tile n _ _ _ => n | _ => 0)) = some ([], [17], some 253) := by decide +kernel

/-- 9.4: with tile 253 sent, TILE OUT 17, writer 5, version 41 starts, and the tile is CLEAN. -/
theorem test_send_second :
    after (.consoleSendStart 0) { sendingNode with console := { sendingNode.console with systemQueue := [] } } (fun t =>
      (t.console.sending, (t.console.tiles.getD 17 {}).state)) = some (some (.tile 17 5 (some 41) (.bytes [1])), .clean) := by
  decide +kernel

/-- The end of a record leaves the console transmitter idle. -/
theorem test_send_end :
    after (.consoleSendEnd 900) { sendingNode with console := { sendingNode.console with
        sending := some (.tile 253 7 (some 1) (.bytes [])) } } (fun t => (t.now, t.console.sending.isNone)) = some (1000900, true) := by
  decide +kernel

/-- With the hold line asserted no record starts (R149). -/
theorem test_hold :
    after (.consoleHoldChange 0 true) sendingNode (fun t => t.console.holdIn) = some true ∧
    after (.consoleSendStart 0) { sendingNode with console := { sendingNode.console with holdIn := true } } (fun t =>
      t.console.sending) = some none := by decide +kernel

/-- 9.4: version 42 is newer than 41, repeated it is stale, and version 3 of another writer is taken. -/
theorem test_tile_update :
    let u := sendingNode.console
    let v := u.update 17 5 42 [2]
    (v.tiles.getD 17 {}).version = some 42 ∧ (v.update 17 5 42 [2]).counters.tileStale = 1 ∧
    ((v.update 17 9 3 [4]).tiles.getD 17 {}).lastWriter = 9 := by decide +kernel

/-- A permitted writer over 62 is refused with RANGE, and a WRITE of a system tile with STATE (R146). -/
theorem test_tile_write :
    after (.tileWrite 0 (some { permitted := some 63 })) (asked (ringNode 5) 2 9 17 []) lastStatus = some (some 2) ∧
    after (.tileWrite 0 (some { permitted := some 5 })) (asked (ringNode 5) 2 9 252 []) lastStatus = some (some 3) ∧
    after (.tileWrite 0 (some { permitted := some 5 })) (asked (ringNode 5) 2 9 17 []) (fun t =>
      (t.console.tiles.getD 17 {}).permitted) = some 5 := by decide +kernel

/-! ### The ring, the election and the links (10 to 12) -/

/-- The camera node of 10.5 at 241 µs: port B ends a frame, the horizon is at 248 µs, and a segment of 1,044 bytes waits. -/
def horizonNode (console : List ClassEntry) : State :=
  let s := ringNode 5
  { s with
    now := 240000
    portA := { link := { upLink with rate := .reduced } }
    portB := {
      link := { upLink with rate := .reduced }
      sending := some ⟨Frame.own 5 .correction 9 (.bytes [0, 0, 0, 0, 1]), 241000, false, false⟩ }
    forward := { s.forward with
      horizon := 248000, console := console, image := [⟨Frame.own 5 .segment 14 (.bytes (List.replicate 1032 0)), .segment 0⟩] } }

/-- R166: a port whose head was held back stays idle at an event that is none of the four causes, although the head would now fit. -/
theorem test_idle_port :
    let s := horizonNode []
    let t := { s with portB := { s.portB with sending := none }, forward := { s.forward with horizon := 9000000 } }
    after (.consoleHoldChange 0 true) t (fun x => (x.portB.sending.isSome, x.forward.image.length)) = some (false, 1) := by
  decide +kernel

/-- 10.5: the segment would end at 249.352 µs, after the horizon: it waits, and the horizon hold is counted once. -/
theorem test_horizon_hold :
    after (.portFrameEnd .b) (horizonNode []) (fun t => (t.now, t.portB.sending.isSome, t.forward.image.length,
      t.forward.counters.horizonHold)) = some (241000, false, 1, 1) := by decide +kernel

/-- 10.5: a tile frame of 79 bytes would end at 241.632 µs, and starts. -/
theorem test_horizon_tile :
    after (.portFrameEnd .b) (horizonNode [⟨Frame.own 5 .tile 14 (.bytes (List.replicate 67 1)), .consoleFrame⟩]) (fun t =>
      (t.portB.sending.map (·.ends), t.forward.consoleUsed, t.forward.sharedUsed)) = some (some 241632, 79, 79) := by decide +kernel

/-- 10.5: at REDUCED and 250 µs the effective allowance is 15,625. -/
theorem test_allowance : (({} : ForwardUnit).renew .reduced .us250 250000).allowanceEff = 15625 := by decide

/-- A frame for another node passes from port A to port B with its hop budget lowered (R157, R159). -/
theorem test_forward :
    after (.frameArrival 0 .a (Frame.own 2 .correction 9 (.bytes [0, 0, 0, 0, 1])).encode) (ringNode 5) (fun t =>
      (t.portB.sending.map fun x => (x.frame.dest, x.frame.hop, x.transit), t.portA.sending.isSome)) = some (some (9, 127, true), false) := by
  decide +kernel

/-- Node 5 of 11.3 when it is lost: a priority of 6 and no claim placed. -/
def losing (e : ElectionUnit) : State := { ringNode 5 with election := { e with priority := 6 } }

/-- 11.3: the claim step with attempt 1: CLAIMING, 20 ms, and the claim of node 5 with priority 6 and floor FULL starts. -/
theorem test_listen_expiry :
    after .listenTimerExpiry (losing { state := .listening, listenTimer := some 400000 }) (fun t => (t.election.state,
      t.election.attempts, t.election.claimTimer, t.portB.sending.map fun x => x.frame.data))
      = some (.claiming, 1, some 20400000, some [5, 6, 1, 0]) := by decide +kernel

/-- After five attempts the next claim timer ends in FAILED (R178). -/
theorem test_claim_expiry :
    after .claimTimerExpiry (losing { state := .claiming, claimTimer := some 20000000, attempts := 5 }) (fun t => (t.election.state,
      t.election.counters.electionFailed)) = some (.failed, true) := by decide +kernel

/-- 11.3, at 1,581.108 µs: node 5's own claim returns to LINE-A while CLAIMING: MASTER, ring rate FULL, V 39,000, Vt 40,000. -/
theorem test_election_won :
    let s := losing { state := .claiming, claimTimer := some 20000000, attempts := 1 }
    after (.frameArrival 0 .a (Frame.own 5 .claim 0 (.bytes [5, 6, 1, 0])).encode) { s with
        forward := { s.forward with ring := .lineA }
        portB := {}
        cycle := { s.cycle with sync := .lost, number := 603, lastStep := 39000, lastTarget := 40000 } } (fun t =>
      (t.election.state, t.cycle.ringRate, t.cycle.gen.v, t.cycle.gen.vt, t.cycle.sync)) = some (.master, .full, 39000, 40000, .synced) := by
  decide +kernel

/-- 12.2, at 6 ms: the third watchdog expires; attempt 4 starts at REDUCED, and downgraded is latched. -/
theorem test_watchdog :
    let s := node 7
    after (.lockWatchdogExpiry .b) { s with portB := { link := { s.portB.link with attempt := 3, watchdog := some 6000000 } } } (fun t =>
      (t.portB.link.attempt, t.portB.link.rate, t.portB.link.counters.downgraded, t.portB.link.watchdog))
      = some (4, .reduced, true, some 8000000) := by decide +kernel

/-- After eight attempts a pause of 100 ms, and then the next attempt (R186). -/
theorem test_retry :
    let s := node 7
    after (.lockWatchdogExpiry .b) { s with portB := { link := { s.portB.link with attempt := 8, watchdog := some 6000000 } } } (fun t =>
      (t.portB.link.attempt, t.portB.link.watchdog, t.portB.link.retry)) = some (9, none, some 106000000) ∧
    after (.retryTimerExpiry .b) { s with portB := { link := { s.portB.link with attempt := 9, watchdog := none, retry := some 106000000 } } }
      (fun t => (t.now, t.portB.link.watchdog, t.portB.link.rate)) = some (106000000, some 108000000, .reduced) := by decide +kernel

/-- 12.2, at 6.3 ms: word lock. -/
theorem test_lock : after (.wordLockGained 300000 .b) (node 7) (fun t =>
    (t.portSends .b, (t.elapse 16).portSends .b, (t.elapse 10000).portSends .b)) =
      some (.identity .full (identityRecord 7 .b), .acquisition .full, .identity .full (identityRecord 7 .b)) := by decide +kernel

/-- 12.2, at 6.31 ms: the identity of node 8, port A, at node 7: UP, ring state LINE-B, source 27 inactive. -/
theorem test_identity :
    let s := node 7
    after (.identityRecordIn 10000 .b (identityRecord 8 .a)) { s with portB := { link := { s.portB.link with identity := some 0 } } } (fun t =>
      (t.portB.link.state, t.portB.link.neighbour, t.forward.ring, t.portB.link.counters.linkUp)) = some (.up, some (8, 0), .lineB, 1) := by
  decide +kernel

/-- R187: the port that enters UP sends its own identity record once more, 4 bytes of 4 ns, and then its first frame, a claim of 16 bytes. -/
theorem test_identity_once_more :
    let s := node 7
    let claim := Frame.own 7 .claim 0 (.bytes (claimPayload 7 9 1 .full))
    after (.identityRecordIn 10000 .b (identityRecord 8 .a)) { s with
        portB := { link := { s.portB.link with identity := some 0 } }, forward := { s.forward with management := [⟨claim, .election⟩] } } (fun t =>
      (t.portB.sending.map (·.ends), t.portSends .b, (t.elapse 16).portSends .b))
      = some (some 10080, .identity .full (identityRecord 7 .b), .frame .full claim) := by decide +kernel

/-- R173: an unwritten slot is sent with all 8 bytes 0, whatever a master holds of it. -/
theorem test_unwritten_slot : SlotArea.toBytes (SlotArea.empty.set 3 0x7300000100000005) = List.replicate 496 0 := by decide +kernel

/-- Lock lost on port B of a closed ring: LINE-A, and the attempts start again at 1 and FULL (R189). -/
theorem test_lock_lost :
    after (.lockLost 0 .b) (ringNode 5) (fun t => (t.portB.link.state, t.portB.link.attempt, t.forward.ring,
      t.portB.link.counters.lockLost)) = some (.acquire, 1, .lineA, true) := by decide +kernel

/-! ### Resets and management (13) -/

/-- RESET held low: the values of a reset, the TO pins low, no timer running, and the levels of the outside taken; at its end the
straps are read and the TO pins released (R90, R192). -/
theorem test_reset_held :
    after (.powerOnReset 100 none) (follower 5) (fun t => (t.now, t.straps, t.cycle.sync, t.toPins)) =
      some (1000100, 5, .unsynced, 0xF) ∧
    after .substituteCycle ((follower 5).inReset 7) (fun t => (t.now, t.cycle.number, t.toPins)) = some (7, 0, 0xF) ∧
    after (.tripInputChange 5 2 false) ((follower 5).inReset 7) (fun t => (t.now, t.trip.pins, t.trip.hold.get? 2)) =
      some (12, 0xFB, some (some 20012)) ∧
    after (.powerOnReset 9 (some 6)) ((follower 5).inReset 7) (fun t => (t.now, t.straps, t.toPins)) = some (16, 6, 0) := by
  decide +kernel

/-- A power-on reset ends with the straps read and the part UNSYNCED and ISOLATED (R192). -/
theorem test_power_on :
    after (.powerOnReset 100 (some 7)) (follower 5) (fun t => (t.now, t.straps, t.cycle.sync, t.forward.ring)) =
      some (1000100, 7, .unsynced, .isolated) := by decide +kernel

/-- An executed NODE RESET begins at the end of its 10 ms at the latest (R198). -/
theorem test_node_reset :
    after (.nodeReset 0) (asked (ringNode 5) 11 0 0 []) (fun t => (t.agent.resetWait, lastStatus t)) =
      some (some ⟨10000000, none⟩, some 0) ∧
    after (.nodeResetBegin 9) { ringNode 5 with agent := { resetWait := some ⟨10000000, none⟩ } } (fun t =>
      (t.now, t.straps, t.forward.ring)) = some (10000000, 9, .isolated) := by decide +kernel

/-- A READ of the program length answers the length (R196). -/
theorem test_read :
    after (.read 0) (asked (tripNode 0 0 []) 1 4 0 []) (fun t => t.console.replies.getLast?) =
      some (some (.answer 7 5 0 (.entry (.programLength 6)) false)) := by decide +kernel

/-- READ-CLEAR of the axis unit's counters clears them (R196). -/
theorem test_read_clear :
    let s := ringNode 5
    after (.readClear 0) (asked (s.setAxis { s.axis with counters := ⟨3, 2, 1⟩ }) 3 12 1 []) (fun t => (t.axis.counters,
      lastStatus t)) = some ({}, some 0) := by decide +kernel

/-- A staging term is written field by field, and the source may be over 63 until the commit (R64, R68). -/
theorem test_write_term :
    after (.write 0 (some { source := some 127, last := some true })) (asked (ringNode 5) 2 3 6 []) (fun t =>
      (t.trip.staging.terms.getD 6 {}, lastStatus t)) = some (⟨127, false, .load, true, none⟩, some 0) := by decide +kernel

/-- A WRITE of the VIEW item is refused with STATE (chapter 13.2). -/
theorem test_write_read_only :
    after (.write 0 (some {})) (asked (ringNode 5) 2 11 0 []) lastStatus = some (some 3) := by decide +kernel

/-- A cycle period that is not one of the four is refused with RANGE; D_A = 1,000 is taken (R14). -/
theorem test_node_settings :
    after (.nodeSettingsWrite 0 (some { cycle := { period := some 300 } })) (asked (ringNode 5) 2 1 0 []) lastStatus = some (some 2) ∧
    after (.nodeSettingsWrite 0 (some { cycle := { dA := some 1000 } })) (asked (ringNode 5) 2 1 0 []) (fun t => t.cycle.dA)
      = some 1000 := by decide +kernel

/-- MASTER_JUMP is cleared by a marked flag field (R11). -/
theorem test_jump_clear :
    let s := ringNode 5
    after (.masterJumpClear 0 (some { jumpFlag := some true })) (asked (s.setCycle { s.cycle with jumpFlag := true }) 2 1 0 []) (fun t =>
      (t.cycle.jumpFlag, lastStatus t)) = some (false, some 0) := by decide +kernel

/-- A direction write while a context is on is refused with STATE (R101). -/
theorem test_image_port :
    after (.imagePortSettingWrite 0 (some { direction := some (some .deliver) })) (asked camera 2 1 0 []) lastStatus = some (some 3) ∧
    after (.imagePortSettingWrite 0 (some { direction := some (some .deliver) })) (asked (ringNode 5) 2 1 0 []) (fun t =>
      t.image.direction) = some .deliver := by decide +kernel

/-- An allowance of 65,535 is taken, and acts from the next cycle event (R171). -/
theorem test_allowance_write :
    after (.allowanceSettingWrite 0 (some { allowance := some 65535 })) (asked (ringNode 5) 2 1 0 []) (fun t =>
      (t.forward.allowance, t.forward.allowanceEff, lastStatus t)) = some (65535, 16384, some 0) := by decide +kernel

/-- A priority written at an UNSYNCED node starts a listen of 10 ms (R175, R176). -/
theorem test_priority :
    after (.priorityWrite 0 (some { priority := some 6 })) (asked (ringNode 5) 2 1 0 []) (fun t => (t.election.state,
      t.election.listenTimer)) = some (.listening, some 10000000) := by decide +kernel

/-- A permit mask without the writer's own mark is refused with STATE (R194). -/
theorem test_permit :
    after (.writePermitMaskWrite 0 (some { permit := some 1 })) (asked (ringNode 5) 2 1 0 []) (fun t => (t.agent.permit == 1)) =
      some false ∧
    after (.writePermitMaskWrite 0 (some { permit := some 0x10 })) (asked (ringNode 5) 2 1 0 []) (fun t => t.agent.permit) =
      some 0x10 := by decide +kernel

/-- A port disabled by management leaves the ring (R190). -/
theorem test_port_enable :
    after (.portEnableWrite 0 (some { enable := some (some false) })) (asked (ringNode 5) 2 10 1 []) (fun t =>
      (t.portB.link.state, t.forward.ring, lastStatus t)) = some (.disabled, .lineA, some 0) := by decide +kernel

/-- A WRITE that names a field which may only be read: STATE, behind RANGE (assumption 82). -/
theorem test_write_of_read_only_fields :
    let s := ringNode 5
    after (.streamWrite 0 (some { base := some 40, readOnly := true })) (asked s 2 7 1 []) lastStatus = some (some 3) ∧
    after (.streamWrite 0 (some { base := some 256, readOnly := true })) (asked s 2 7 1 []) lastStatus = some (some 2) ∧
    after (.markWrite 0 (some { readOnly := true })) (asked s 2 8 1 []) lastStatus = some (some 3) ∧
    after (.portEnableWrite 0 (some { enable := some (some false), readOnly := true })) (asked s 2 10 1 [])
      (fun t => (t.portB.link.state, lastStatus t)) = some (.up, some 3) ∧
    after (.portEnableWrite 0 (some { enable := some none, readOnly := true })) (asked s 2 10 1 []) lastStatus = some (some 2) := by
  decide +kernel

/-- RETRAIN of a disabled port is refused with STATE (R190). -/
theorem test_retrain :
    let s := ringNode 5
    after (.retrain 0) (asked { s with portB := { link := { upLink with state := .disabled } } } 9 10 1 []) lastStatus = some (some 3) ∧
    after (.retrain 0) (asked s 9 10 1 []) (fun t => (t.portB.link.state, t.portB.link.watchdog)) = some (.acquire, some 2000000) := by
  decide +kernel

/-- SET SPEED at a node that is not MASTER is refused with STATE; at the master of 1.6.1 it sets Vt (R16). -/
theorem test_set_speed :
    after (.setSpeed 0) (asked (follower 5) 7 0 0 [0, 0, 0x27, 0x10, 0x0B, 0xB8]) lastStatus = some (some 3) ∧
    after (.setSpeed 0) (asked (masterNode 1) 7 0 0 [0, 0, 0x27, 0x10, 0x0B, 0xB8]) (fun t => (t.cycle.gen.vt, t.cycle.gen.accel,
      lastStatus t)) = some (10000, 3000, some 0) := by decide +kernel

/-- RING RESTART at a master: LISTENING for 5 ms, quiet (R182). -/
theorem test_ring_restart :
    after (.ringRestart 0) (asked (masterNode 1) 10 0 0 []) (fun t => (t.election.state, t.election.listenTimer, t.election.quiet,
      lastStatus t)) = some (.listening, some 6000000, true, some 0) := by decide +kernel

/-- A request kind outside the eleven is answered UNKNOWN (R194). -/
theorem test_unknown_kind :
    after (.unknownRequestKind 0) (asked (ringNode 5) 12 0 0 []) (fun t => (t.agent.counters.unknown, lastStatus t)) = some (1, some 1) := by
  decide +kernel

/-- A request of an origin that is not permitted is DENIED (R194). -/
theorem test_denied :
    let s := ringNode 5
    after (.enable 0) (asked { s with agent := { s.agent with permit := 1 } } 6 2 4 [1]) (fun t => ((axisOf t 4).state,
      t.agent.counters.denied, lastStatus t)) = some (.off, 1, some 4) := by decide +kernel

/-! ### Witnesses: what meets the hypotheses of the statements -/

theorem due {s : State} {kind item index : Byte} {data : List Byte} {k : RequestKind}
    (h : (agentFree (asked s kind item index data) && (request s kind item index data).kindOf == some k &&
      permitted (asked s kind item index data) (request s kind item index data)) = true) :
    Due (asked s kind item index data) (request s kind item index data) [] k := by
  rw [Bool.and_eq_true, Bool.and_eq_true] at h
  exact ⟨rfl, h.1.1, eq_of_beq h.1.2, .inr h.2⟩

theorem names {s : State} {kind item index : Byte} {data : List Byte} {i : Item}
    (h : ((request s kind item index data).itemOf == some i && decide ((request s kind item index data).entry < i.entries)) = true) :
    Names (request s kind item index data) i := by
  rw [Bool.and_eq_true] at h
  exact ⟨eq_of_beq h.1, of_decide_eq_true h.2⟩

theorem arrives {s : State} {p : PortId} {f : Frame}
    (h : ((s.port p).link.state == .up && decide ((s.port p).link.errors < 8) && receive f.encode == .frame f && f.hop != 0) = true) :
    Arrives s p f.encode f := by
  rw [Bool.and_eq_true, Bool.and_eq_true, Bool.and_eq_true] at h
  exact ⟨eq_of_beq h.1.1.1, of_decide_eq_true h.1.1.2, eq_of_beq h.1.2, by simpa using h.2⟩

theorem consumed {s : State} {f : Frame}
    (h : (s.hasAddress && f.origin != s.addressByte && (f.dest == s.addressByte || f.dest == 0) && f.kind != .claim) = true) :
    Consumed s f := by
  rw [Bool.and_eq_true, Bool.and_eq_true, Bool.and_eq_true, Bool.or_eq_true] at h
  exact ⟨h.1.1.1, by simpa using h.1.1.2, by simpa using h.1.2, by simpa using h.2⟩

/-- The law on regions, where context `k` alone can be on: each of its clauses as a check. -/
def regionChecks (s : State) (k : Nat) : Bool :=
  let c := s.image.ctx k
  let q := s.forward.image
  decide (k < 8) && ((List.range 8).all fun i => i == k || s.image.ctx i == {}) && decide (s.forward.management ++ s.forward.console = []) &&
  decide (c.work.held ≤ c.record.capacity ∧ c.record.base + c.record.size ≤ 256) && (c.record.mode != .off || c.work == {}) &&
  (c.record.mode != .source || decide (k < 2) && (c.work.held == 0 || q.any fun e => e.owner == .segment k)) &&
  (c.work.triggers == [] || c.record.mode == .source) &&
  (c.work.capture == none || c.record.mode == .source && decide (c.work.held < c.record.capacity)) &&
  c.work.assembly.all (fun a => c.record.mode == .sink && (a.cond == .dropped || decide (c.work.held < c.record.capacity))) &&
  q.all (fun e => e.owner == .segment k && c.record.mode == .source) && decide (q.map fun e => e.owner).Nodup &&
  s.image.delivery.all (fun d => d.ctx == k && c.record.mode == .sink)

theorem lawful {s : State} (k : Nat) (h : regionChecks s k = true) : RegionLaw s := by
  simp only [regionChecks, Bool.and_eq_true, Bool.or_eq_true, decide_eq_true_eq, beq_iff_eq, bne_iff_ne, List.all_eq_true,
    List.any_eq_true, Option.all_eq_true, List.mem_range] at h
  obtain ⟨⟨⟨⟨⟨⟨⟨⟨⟨⟨⟨hk, others⟩, other⟩, fits⟩, off⟩, source⟩, trig⟩, cap⟩, asm⟩, owned⟩, single⟩, sink⟩ := h
  refine ⟨fun i hi x hx => ?_, fun e he => ⟨k, hk, owned e he⟩, single, fun e he => ?_, fun d hd => ?_⟩
  · subst hx
    by_cases h : i = k
    · subst h
      refine ⟨fits.1, fun m => off.resolve_left (not_not_intro m), fun _ => ⟨fits.2, fun j hj hn hm => ?_⟩,
        fun m => (source.resolve_left (not_not_intro m)).imp_right fun p n => p.resolve_left (Nat.pos_iff_ne_zero.mp n), trig.resolve_left,
        cap.resolve_left, fun a ha => (asm a ha).imp_right fun p => p.resolve_left⟩
      rw [(others j hj).resolve_left hn] at hm
      exact absurd rfl hm
    · rw [(others i hi).resolve_left h]
      exact ⟨by decide, fun _ => rfl, fun m => absurd rfl m, nofun, fun m => absurd rfl m, fun m => absurd rfl m, nofun⟩
  · rw [other] at he
    cases he
  · have x := sink d hd
    rw [x.1]
    exact ⟨hk, x.2⟩

theorem meets_StepRunsTheFrontCommand :
    ((node 5).withPending [.substituteCycle, .outputInstant]).pending = .substituteCycle :: [.outputInstant] ∧ (node 5).pending = [] :=
  ⟨rfl, rfl⟩

/-- While RESET is held, and when it is not; a command that does not end the reset. -/
theorem meets_EveryCommandCompletes :
    ((follower 5).inReset 7).resetHeld = true ∧ (follower 5).resetHeld = false ∧
    ∀ dt straps, Instr.substituteCycle ≠ .powerOnReset dt (some straps) := ⟨rfl, rfl, fun _ _ h => by cases h⟩

/-- RESET is not held in the states of the witnesses below, as `Completes` asks. -/
theorem meets_reset_not_held :
    (∀ n, (node n).resetHeld = false ∧ (ringNode n).resetHeld = false ∧ (follower n).resetHeld = false ∧
      (masterNode n).resetHeld = false) ∧
    (∀ s k i x d, (asked s k i x d).resetHeld = s.resetHeld) ∧ (∀ s i e, (withAxis s i e).resetHeld = s.resetHeld) ∧
    (∀ s i c, (withCtx s i c).resetHeld = s.resetHeld) ∧ coasting.resetHeld = false ∧
    (∀ p a r, (polling p a r).resetHeld = false) ∧ (∀ x o c, (tripNode x o c).resetHeld = false) ∧
    (∀ h t c, (fullRegion h t c).resetHeld = false) ∧ sendingNode.resetHeld = false ∧ (∀ l, (horizonNode l).resetHeld = false) ∧
    ∀ e, (losing e).resetHeld = false :=
  ⟨fun _ => ⟨rfl, rfl, rfl, rfl⟩, fun _ _ _ _ _ => rfl, fun _ _ _ => rfl, fun _ _ _ => rfl, rfl, fun _ _ _ => rfl, fun _ _ _ => rfl,
    fun _ _ _ => rfl, rfl, fun _ => rfl, fun _ => rfl⟩

theorem meets_PowerOnResetLeavesTheTabledValues :
    (ringNode 5).resetHeld = false ∧ (∀ b, ({ ringNode 5 with agent := { resetWait := b } } : State).resetHeld = false) ∧
    ({ ringNode 5 with agent := { resetWait := some ⟨10000000, some 40⟩ } } : State).agent.resetWait = some ⟨10000000, some 40⟩ ∧
    (ringNode 5).agent.resetWait = none := ⟨rfl, fun _ => rfl, rfl, rfl⟩

/-- Unsynced; COASTING with one substitute counted and with two, where the third brings |Vlast| of 6,000 = d to 0. -/
theorem meets_SubstituteCycleRule :
    ((node 5).election.state ≠ .master ∧ (node 5).cycle.sync = .unsynced) ∧
    (coasting.election.state ≠ .master ∧ coasting.cycle.sync ≠ .unsynced ∧ ¬coasting.cycle.substitutes < 2) ∧
    ({ coasting.cycle with substitutes := 1 } : CycleUnit).substitutes < 2 ∧
    ({ coasting.cycle with vlast := -6000 } : CycleUnit).vlast.natAbs ≤ coasting.cycle.coast := by decide +kernel

/-- A node in LISTENING that enters LOST, with the quiet mark clear and set, and one that only starts to coast. -/
theorem meets_SubstituteCycleRule_lost :
    (∀ q, let s := { coasting with election := { state := .listening, priority := 6, quiet := q } }
      s.election.state ≠ .master ∧ s.cycle.sync ≠ .lost ∧ s.election.state = .listening ∧ s.election.quiet = q ∧
      after .substituteCycle s (fun t => t.cycle.sync) = some .lost) ∧
    after .substituteCycle { follower 5 with election := { state := .listening, priority := 6 } } (fun t => t.cycle.sync)
      = some .coasting := by decide +kernel

/-- A Vlast of exactly J, and one of J + 1, where the clamp of R11 bites. -/
theorem meets_SubstituteCycleRule_jump :
    let s (v : Int) : State := { coasting with cycle := { coasting.cycle with substitutes := 0, vlast := v, jump := 1000 } }
    let far (v : Int) : Prop := (s v).cycle.jump < (extDiff (s v).cycle.mloc ((s v).cycle.mloc + BitVec.ofInt 40 v)).natAbs
    ¬far 1000 ∧ far 1001 ∧ far (-1001) ∧ (s 0).election.state ≠ .master ∧
    after .substituteCycle (s 1001) (fun t => (t.cycle.lastStep, t.cycle.lag, t.cycle.jumpFlag, t.cycle.counters.masterJump))
      = some (1000, 1, true, 1) := by decide +kernel

/-- A difference of exactly J, and one of J + 1. -/
theorem meets_MlocFollowsByAtMostJ :
    let u : CycleUnit := { mloc := pos 7 16777215 }
    (extDiff u.mloc (pos 8 65535)).natAbs ≤ u.jump ∧ u.jump < (extDiff u.mloc (pos 8 65536)).natAbs := by decide

/-- Copy 41 from node 9, with a master address. -/
def copyFrom (master : Byte) : Frame :=
  Frame.own 9 .cycle 0 (.bytes (writeCycle 41 .full .us250 master (pos 7 1000) 20000 20000 100 1 SlotArea.empty SlotArea.empty))

/-- Copy 41 of master 9. -/
def copy41 : Frame := copyFrom 9

theorem meets_FirstCopyIsTaken :
    Arrives (follower 5) .a copy41.encode copy41 ∧ (follower 5).hasAddress = true ∧ copy41.kind = .cycle ∧ copy41.dest = 0 ∧
    copy41.origin ≠ (follower 5).addressByte ∧ (follower 5).election.state ≠ .master ∧ (follower 5).cycle.sync = .synced ∧
    (readCycle copy41.data).number = (follower 5).cycle.number + 1 ∧ (readCycle copy41.data).rate = some .full ∧
    (readCycle copy41.data).period = some .us250 ∧ (readCycle copy41.data).master = copy41.origin :=
  ⟨arrives (by decide +kernel), by decide +kernel⟩

/-- A node with straps `n` whose local number is `k`, of origin `o`, in sync state `y`. -/
def numbered (n : BitVec 6) (k : BitVec 16) (y : SyncState) (o : NumberOrigin) : State :=
  { follower n with cycle := { (follower n).cycle with sync := y, number := k, numberOrigin := o } }

/-- Copy 41 of master 9 at nodes of every local number, at a node without an address too, and a copy that names master 8. -/
theorem meets_FirstCopyIsTaken_copies :
    (∀ k y o, Arrives (numbered 5 k y o) .a copy41.encode copy41 ∧ Arrives (numbered 0 k y o) .a copy41.encode copy41) ∧
    Arrives (follower 5) .a (copyFrom 8).encode (copyFrom 8) ∧ (copyFrom 8).kind = .cycle ∧
    (readCycle (copyFrom 8).data).master ≠ (copyFrom 8).origin :=
  ⟨fun _ _ _ => ⟨meets_FirstCopyIsTaken.1, meets_FirstCopyIsTaken.1⟩, arrives (by decide +kernel), by decide +kernel⟩

/-- A copy of each class of R4: local numbers one below, equal, one above and further below, up to the half of the number circle. -/
theorem meets_FirstCopyIsTaken_classes :
    (∀ k y o, (numbered 5 k y o).election.state ≠ .master ∧ (numbered 5 k y o).addressByte ≠ copy41.origin ∧
      (numbered 0 k y o).election.state ≠ .master ∧ (numbered 0 k y o).hasAddress = false) ∧
    (readCycle copy41.data).rate.isSome = true ∧ (readCycle copy41.data).period.isSome = true ∧
    (readCycle copy41.data).master = copy41.origin ∧ (readCycle copy41.data).number = 41 ∧
    (41 : BitVec 16) = 40 + 1 ∧ newer (41 : BitVec 16) 39 = true ∧
    newer (41 : BitVec 16) 42 = false ∧ newer (41 : BitVec 16) (41 - 32767) = true ∧ newer (41 : BitVec 16) (41 - 32768) = false := by
  refine ⟨fun k y o => ?_, by decide +kernel⟩
  have e : (numbered 5 k y o).election.state = (follower 5).election.state ∧ (numbered 5 k y o).addressByte = (follower 5).addressByte ∧
    (numbered 0 k y o).election.state = (follower 0).election.state ∧ (numbered 0 k y o).hasAddress = (follower 0).hasAddress :=
    ⟨rfl, rfl, rfl, rfl⟩
  rw [e.1, e.2.1, e.2.2.1, e.2.2.2]
  decide +kernel

/-- A master with |V| = J, with and without a stop in view. -/
theorem meets_MasterCycleEventRule :
    let s := { masterNode 1 with cycle := { (masterNode 1).cycle with gen := ⟨0, -65536, 10, 1000, 4096⟩ } }
    s.election.state = .master ∧ s.cycle.gen.v.natAbs ≤ s.cycle.jump ∧ masterStopInView s.trip = false ∧
    masterStopInView { s.trip with view := 1, actions := s.trip.actions.set 0 { kind := .syncStop, masterStop := true } } = true ∧
    after .masterCycleEvent s (fun t => (extDiff s.cycle.mloc t.cycle.gen.position).natAbs) = some 64536 := by decide +kernel

/-- A position one count further than J from Mloc, and ports that are UP. -/
theorem meets_MasterCycleEventRule_jump :
    let s := { masterNode 1 with cycle := { (masterNode 1).cycle with gen := ⟨65537, 0, 0, 1000, 4096⟩ } }
    s.election.state = .master ∧ s.cycle.jump < (extDiff s.cycle.mloc 65537).natAbs ∧
    after .masterCycleEvent s (fun t => (t.cycle.gen.position, t.cycle.jumpFlag)) = some (65537, true) ∧
    (s.port .a).link.state = .up ∧ (s.port .b).link.state = .up := by decide +kernel

theorem meets_MergeOfReturnedCopies :
    let u : CycleUnit := { sentNumber := some 900, returned := [SlotArea.empty, returnedArea] }
    u.sentNumber = some 900 ∧ u.returned ≠ [] ∧ u.returned = [SlotArea.empty] ++ returnedArea :: [] ∧
    slotWritten (SlotArea.empty.getD 2 0) = false ∧ slotWritten (returnedArea.getD 2 0) = true ∧
    slotWritten (returnedArea.getD 61 0) = false ∧ ({ u with returned := [] } : CycleUnit).returned = [] := by decide +kernel

/-- The own copy 41 back at a master that sent 41 last, at one that sent another, and at a node that is not master. -/
theorem meets_MergeOfReturnedCopies_return :
    Arrives (masterNode 9) .a copy41.encode copy41 ∧ Arrives (follower 9) .b copy41.encode copy41 ∧
    (masterNode 9).hasAddress = true ∧ copy41.origin = (masterNode 9).addressByte ∧ copy41.origin = (follower 9).addressByte ∧
    copy41.kind = .cycle ∧ (readCycle copy41.data).number = 41 ∧ (masterNode 9).election.state = .master ∧
    ({ (masterNode 9).cycle with sentNumber := some 41 } : CycleUnit).sentNumber = some 41 ∧
    (masterNode 9).cycle.sentNumber = none ∧ (follower 9).election.state ≠ .master :=
  ⟨arrives (by decide +kernel), arrives (by decide +kernel), by decide +kernel⟩

/-- Exactly six data bytes: at a follower, at a master with acceleration 0, and at a master with V beyond J. -/
theorem meets_SetSpeedRule :
    (Due (asked (follower 5) 7 0 0 [0, 0, 0, 1, 0, 1]) (request (follower 5) 7 0 0 [0, 0, 0, 1, 0, 1]) [] .setSpeed ∧
      (follower 5).election.state ≠ .master) ∧
    Due (asked (masterNode 1) 7 0 0 [0, 0, 0, 1, 0, 0]) (request (masterNode 1) 7 0 0 [0, 0, 0, 1, 0, 0]) [] .setSpeed ∧
    (Due (asked (masterNode 1) 7 0 0 [0, 1, 0, 1, 0, 1]) (request (masterNode 1) 7 0 0 [0, 1, 0, 1, 0, 1]) [] .setSpeed ∧
      (request (masterNode 1) 7 0 0 [0, 1, 0, 1, 0, 1]).acceleration = 1 ∧
      (request (masterNode 1) 7 0 0 [0, 1, 0, 1, 0, 1]).targetSpeed = 65537) :=
  ⟨⟨due (by decide +kernel), by decide +kernel⟩, due (by decide +kernel), due (by decide +kernel), by decide +kernel⟩

/-- A WRITE of the NODE item at ring node 5. -/
theorem node_write_due : Due (asked (ringNode 5) 2 1 0 []) (request (ringNode 5) 2 1 0 []) [] .write ∧
    Names (request (ringNode 5) 2 1 0 []) .node := ⟨due (by decide +kernel), names (by decide +kernel)⟩

/-- Boundary values of every field, each accepted. -/
theorem meets_NodeWriteIsAcceptedExactly :
    let s := ringNode 5
    let r := request s 2 1 0 []
    checkNodeWrite s r { cycle := ⟨some 2000, some 4194304, some 65535, some 1000, some 1000, some 1000, some 65535, some 1⟩ } = .ok ∧
    checkNodeWrite s r { direction := some (some .deliver), tap := some (some .mirrored), allowance := some 65535, priority := some 0 }
      = .ok ∧
    checkNodeWrite s r { cycle := { dA := some 1001 } } = .range ∧ checkNodeWrite s r { readOnly := true } = .state ∧
    checkNodeWrite camera r { direction := some (some .deliver) } = .state ∧ checkNodeWrite s r { priority := some 16 } = .range := by
  decide +kernel

/-- Each of the six rows, with a write it is about; the priority 0 and another. -/
theorem meets_NodeWriteRowsSetTheNamedFields :
    let ok (w : NodeWrite) : Prop := checkNodeWrite (asked (ringNode 5) 2 1 0 []) (request (ringNode 5) 2 1 0 []) w = .ok
    (ok { cycle := { jump := some 1 } } ∧ ({ jump := some 1 } : CycleWrite) ≠ {}) ∧ ok { jumpFlag := some true } ∧
    ok { tap := some (some .interleaved) } ∧ ok { consoleCap := some 0 } ∧ ok { priority := some 0 } ∧ ok { priority := some 15 } ∧
    ok { permit := some 0x10 } := by decide +kernel

/-- A written priority: above 0 at a PASSIVE node with and without an address and at one in LISTENING, and 0 at a PASSIVE node and at one in
LISTENING. -/
theorem meets_NodeWriteRowsSetTheNamedFields_priority :
    let row (s : State) (n : Nat) : Prop := Due (asked s 2 1 0 []) (request s 2 1 0 []) [] .write ∧
      Names (request s 2 1 0 []) .node ∧ checkNodeWrite (asked s 2 1 0 []) (request s 2 1 0 []) { priority := some n } = .ok
    let l := losing { state := .listening, listenTimer := some 9 }
    row (ringNode 5) 1 ∧ row (ringNode 5) 0 ∧ row (ringNode 0) 15 ∧ row l 15 ∧ row l 0 ∧
    (ringNode 5).election.state = .passive ∧ (ringNode 5).hasAddress = true ∧ (ringNode 0).election.state = .passive ∧
    (ringNode 0).hasAddress = false ∧ l.election.state = .listening :=
  ⟨⟨due (by decide +kernel), names (by decide +kernel), by decide +kernel⟩,
    ⟨due (by decide +kernel), names (by decide +kernel), by decide +kernel⟩,
    ⟨due (by decide +kernel), names (by decide +kernel), by decide +kernel⟩,
    ⟨due (by decide +kernel), names (by decide +kernel), by decide +kernel⟩,
    ⟨due (by decide +kernel), names (by decide +kernel), by decide +kernel⟩, by decide +kernel⟩

/-- The hypotheses of NodeWriteRowsSetTheNamedFields, its refused side: each row with a WRITE that its block refuses. -/
theorem meets_NodeWriteRowsSetTheNamedFields_refused :
    let is (w : NodeWrite) (st : Status) : Prop :=
      checkNodeWrite (asked (ringNode 5) 2 1 0 []) (request (ringNode 5) 2 1 0 []) w = st
    is { cycle := { jump := some 0 } } .range ∧ is { jumpFlag := some true, readOnly := true } .state ∧
    is { tap := some none } .range ∧ is { consoleCap := some 65536 } .range ∧ is { priority := some 16 } .range ∧
    is { permit := some 0 } .state := by decide +kernel

theorem meets_AxisRequestRules :
    let s := withAxis (follower 5) 9 axis9
    (Due (asked s 6 2 9 [1]) (request s 6 2 9 [1]) [] .axis ∧ Names (request s 6 2 9 [1]) .axis ∧
      (asked s 6 2 9 [1]).axis.entries.get? 9 = some axis9 ∧ (request s 6 2 9 [1]).command = some .enable) ∧
    (Due (asked s 6 2 9 [2]) (request s 6 2 9 [2]) [] .axis ∧ (request s 6 2 9 [2]).command = some .engage ∧ engageReady s = true) ∧
    (Due (asked s 6 2 9 [4]) (request s 6 2 9 [4]) [] .axis ∧ (request s 6 2 9 [4]).command = some .disable) ∧
    (Due (asked s 6 2 9 [5]) (request s 6 2 9 [5]) [] .axis ∧ (request s 6 2 9 [5]).command = some .release) :=
  ⟨⟨due (by decide +kernel), names (by decide +kernel), by decide +kernel⟩, ⟨due (by decide +kernel), by decide +kernel⟩,
    ⟨due (by decide +kernel), by decide +kernel⟩, due (by decide +kernel), by decide +kernel⟩

theorem meets_StopRule :
    let s := withAxis (follower 5) 4 axis4
    Due (asked s 6 2 4 [3]) (request s 6 2 4 [3]) [] .axis ∧ Names (request s 6 2 4 [3]) .axis ∧
    (request s 6 2 4 [3]).command = some .stop ∧ (asked s 6 2 4 [3]).axis.entries.get? 4 = some axis4 ∧
    ({ axis4 with state := .stopping } : AxisEntry).v = 0 :=
  ⟨due (by decide +kernel), names (by decide +kernel), by decide +kernel⟩

theorem meets_AxisWriteIsAcceptedExactly :
    100 = (none : Option Nat).getD axis4.corrMax ∧ 100 < ((-101 : Int)).natAbs ∧
    (axis4.checkWrite { corr := some (-101), group := some 3 } fun _ => true) = .range ∧
    (({} : AxisEntry).checkWrite { offset := some 5, target := some 6, readOnly := true } fun _ => false) = .range ∧
    (({} : AxisEntry).checkWrite { num := some (-32768), den := some 65535, ferrLimit := some 16777216, offset := some 5, target := some 5 }
      fun _ => false) = .ok ∧
    (axis4.checkWrite { num := some 0 } fun _ => false) = .range ∧ (axis4.checkWrite { group := some 3 } fun _ => true) = .state := by
  decide

/-- The five rows: an accepted write, and one refused. -/
theorem meets_AxisWriteRowsSetTheNamedFields :
    let s := withAxis (follower 5) 4 axis4
    Due (asked s 2 2 4 []) (request s 2 2 4 []) [] .write ∧ Names (request s 2 2 4 []) .axis ∧
    (asked s 2 2 4 []).axis.entries.get? 4 = some axis4 ∧
    axis4.checkWrite { slew := some 9 } (groupStopped s.trip) = .ok ∧ axis4.checkWrite { target := some 9 } (groupStopped s.trip) = .ok ∧
    axis4.checkWrite { corrMax := some 39 } (groupStopped s.trip) = .ok ∧ axis4.checkWrite { clear := some {} } (groupStopped s.trip) = .ok ∧
    axis4.checkWrite { mask := some {} } (groupStopped s.trip) = .ok ∧ axis4.checkWrite { offset := some 9 } (groupStopped s.trip) = .state :=
  ⟨due (by decide +kernel), names (by decide +kernel), by decide +kernel⟩

theorem meets_GearRule : axis4.state = .follow ∧ 1 ≤ axis4.den ∧ 1 ≤ ({ state := .follow } : AxisEntry).den := by decide

/-- A difference of exactly the slew rate, and one more. -/
theorem meets_OffsetSlewRule :
    axis4.state ≠ .off ∧ (({ axis4 with offset := 600 } : AxisEntry).target - 600).natAbs ≤ axis4.slew ∧
    axis4.slew < (({ axis4 with offset := 599 } : AxisEntry).target - 599).natAbs := by decide

theorem meets_RestingStatesRule :
    ({ axis4 with state := .stopping, v := 10000 } : AxisEntry).v.natAbs ≤ axis4.decel ∧
    axis9.state = .disabled ∧ axis9.lastActual = some 5000120 ∧ ({ axis9 with lastActual := none } : AxisEntry).lastActual = none ∧
    ({} : AxisEntry).state = .off := by decide

/-- A correction of axis `a` by +900 from node 2 to `dest`. -/
def correctionFrame (dest a : Byte) : Frame := Frame.own 2 .correction dest (.bytes (correctionPayload a.toNat 900))

/-- For an axis in FOLLOW, for the last axis, which is OFF, and for an axis number that no axis has; to all nodes. -/
theorem meets_CorrectionFrameRule :
    let s := withAxis (follower 5) 4 axis4
    (Arrives s .a (correctionFrame 5 4).encode (correctionFrame 5 4) ∧ Consumed s (correctionFrame 5 4)) ∧
    (Arrives s .a (correctionFrame 5 15).encode (correctionFrame 5 15) ∧ Consumed s (correctionFrame 5 15)) ∧
    (Arrives s .a (correctionFrame 5 16).encode (correctionFrame 5 16) ∧ Consumed s (correctionFrame 5 16)) ∧
    (Arrives s .a (correctionFrame 0 4).encode (correctionFrame 0 4) ∧ Consumed s (correctionFrame 0 4)) ∧
    s.axis.entries.get? 4 = some axis4 ∧ s.axis.entries.get? 15 = some {} ∧ s.axis.entries.get? 16 = none :=
  ⟨⟨arrives (by decide +kernel), consumed (by decide +kernel)⟩, ⟨arrives (by decide +kernel), consumed (by decide +kernel)⟩,
    ⟨arrives (by decide +kernel), consumed (by decide +kernel)⟩, ⟨arrives (by decide +kernel), consumed (by decide +kernel)⟩,
    by decide +kernel⟩

theorem meets_OutputInstantRule :
    let s := polling (.sending 1220400) handed11 [handed5]
    let d : DriveLink := { s.drive with next := some ⟨1220000, 21, [handed0]⟩ }
    d.next = some ⟨1220000, 21, [handed0]⟩ ∧ d.poll = some ⟨20, handed11, .sending 1220400, [handed5]⟩ ∧
    ({ d with poll := none } : DriveLink).poll = none := ⟨rfl, rfl, rfl⟩

theorem meets_AnswerWindowRule :
    ({ miss := 3 } : AxisEntry).miss ≤ 3 ∧
    (polling (.sending 1004400) handed0 []).drive.poll = some ⟨20, handed0, .sending 1004400, []⟩ ∧
    (polling (.window 1004400) handed0 []).drive.poll = some ⟨20, handed0, .window 1004400, []⟩ := by decide +kernel

/-- In the open window: a good record of 8 bytes, one with a bad CRC, one of another drive; and with no window open. -/
theorem meets_ActualRecordRule :
    let good := withCrc16 ([0xB2, 20] ++ beBytes 4 2070300)
    let s := polling (.window 1046800) handed11 []
    good.length = 8 ∧ crc16Good good = true ∧ (readActual good).address = 11 ∧ (readActual good).tag = 20 ∧
    crc16Good [0xB2, 20, 0, 0, 0, 0, 0, 0] = false ∧ (readActual [0x52, 20, 0, 0, 0, 0, 0, 0]).address = 5 ∧
    s.drive.poll = some ⟨20, handed11, .window 1046800, []⟩ ∧ (s.axis.entries.get? 11).isSome = true ∧
    (follower 5).drive.poll = none := by decide +kernel

theorem meets_TripInputRule :
    (node 5).trip.pins.getLsbD 7 ≠ false ∧
    ({ (node 5).trip with hold := (node 5).trip.hold.set 7 (some 20000) } : TripUnit).hold.get? 7 = some (some 20000) := by
  decide +kernel

/-- Rule C of 4.2 in the form of the statement: behind a term with its last mark set, three terms, target 9, true. -/
theorem meets_RulesRaiseTheirTargets :
    (program workTerms).used = workTerms.take 3 ++ ([⟨37, false, .load, false, none⟩, ⟨28, false, .and, false, none⟩] ++
      [⟨24, true, .and, true, some 9⟩]) ++ [] ∧
    ((program workTerms).raised 0x2010000000).getLsbD 9 = true ∧ ((program workTerms).raised 0x2011000000).getLsbD 9 = false := by
  decide +kernel

theorem meets_EvaluationRule : (tripNode 0 0 [⟨0x800, 0x800⟩]).trip.changes = ⟨0x800, 0x800⟩ :: [] := rfl

/-- A program that passes R68 and R69, one that fails R68 at its last term, and one with a cycle. -/
theorem meets_CommitChecks :
    firstFailing (program workTerms).used true 0 = none ∧ (program workTerms).refusedAt = none ∧
    firstFailing (program (workTerms ++ [⟨64, false, .load, true, some 31⟩])).used true 0 = some 6 ∧
    firstFailing (program (workTerms ++ [⟨41, false, .load, true, some 5⟩])).used true 0 = none ∧
    (program (workTerms ++ [⟨41, false, .load, true, some 5⟩])).refusedAt = some 3 ∧
    ((program workTerms).used[3]? = some ⟨32 + 5, false, .load, false, none⟩ ∧
      (program workTerms).used[5]? = some ⟨24, true, .and, true, some 9⟩) ∧
    (∀ t ∈ (program workTerms).used, t.target = none ∨ t.target.any (fun c => decide (c < 32)) = true) := by decide +kernel

theorem meets_CommitRule :
    let s := tripNode 0 0 []
    Due (asked s 5 0 0 []) (request s 5 0 0 []) [] .tripCommit ∧ s.trip.staging.refusedAt = none :=
  ⟨due (by decide +kernel), by decide +kernel⟩

/-- Exactly four data bytes, with a cause that remains. -/
theorem meets_TripResetRule :
    let s := tripNode 0x22010001000 0x220 []
    Due (asked s 4 0 0 [0, 0, 2, 0x20]) (request s 4 0 0 [0, 0, 2, 0x20]) [] .tripReset ∧
    (request s 4 0 0 [0, 0, 2, 0x20]).channelMask = 0x220 := ⟨due (by decide +kernel), by decide +kernel⟩

/-- A channel enters the word at an evaluation, and leaves it at a trip reset, a power-on reset and a NODE RESET. -/
theorem meets_OwnRaisedWordIsALatch :
    after (.tripEvaluation 0 0) (tripNode 0 0 [⟨0x800, 0x800⟩]) (fun t => t.trip.own.getLsbD 5) = some true ∧
    after (.tripReset 0) (asked (tripNode 0 0x20 []) 4 0 0 [0, 0, 0, 0x20]) (fun t => t.trip.own.getLsbD 5) = some false ∧
    (tripNode 0 0x20 []).resetHeld = false ∧
    after (.powerOnReset 0 (some 5)) (tripNode 0 0x20 []) (fun t => t.trip.own.getLsbD 5) = some false ∧
    ({ tripNode 0 0x20 [] with agent := { resetWait := some ⟨0, none⟩ } } : State).agent.resetWait ≠ none := by decide +kernel

/-- The trip frame with sequence 41 from node `n`. -/
def tripFrame (n : Byte) : Frame := Frame.own n .trip 0 (.bytes (tripPayload 41 0x20))

/-- From the highest address and the first bad origin behind it; with no entry, an older and an equal one. -/
theorem meets_TripFrameAcceptance :
    let s := follower 3
    (Arrives s .a (tripFrame 62).encode (tripFrame 62) ∧ s.hasAddress = true ∧ (tripFrame 62).origin ≠ s.addressByte ∧
      s.trip.dedupe.getD 61 none = none) ∧
    (Arrives s .a (tripFrame 63).encode (tripFrame 63) ∧ (tripFrame 63).origin ≠ s.addressByte) ∧
    newer (41 : Byte) 40 = true ∧ newer (41 : Byte) 41 = false :=
  ⟨⟨arrives (by decide +kernel), by decide +kernel⟩, ⟨arrives (by decide +kernel), by decide +kernel⟩, by decide +kernel⟩

/-- The highest channel, with a blanking timer at 1 and a held bit of age 1 that the total has. -/
theorem meets_TripTotalsRule :
    let u : TripUnit := { held := (Table.replicate 32 none).set 31 (some 1), blank := (Table.replicate 32 0).set 31 1 }
    31 < 32 ∧ (0x80000000 : Marks).getLsbD 31 = true ∧ u.blank.getD 31 0 ≤ 1 ∧ u.held.getD 31 none = some 1 := by decide +kernel

/-- A view that gains channel 5, assigned AXIS_STOP of group 0, and a view that stays. -/
theorem meets_ViewChangeActs :
    let s := withAxis (follower 3) 4 axis4
    let x := { s with trip := { s.trip with own := 0x20, actions := s.trip.actions.set 5 stopEntry } }
    (formView x).trip.view ≠ x.trip.view ∧ (formView s).trip.view = s.trip.view ∧ x.axis.entries.get? 4 = some axis4 ∧
    axis4.groupInUse < 4 ∧ assignsStop x.trip.actions (formView x).trip.view 5 0 = true ∧
    ((formView x).console.tiles.get? 252).isSome = true := by decide +kernel

/-- A channel of kind SYNC_STOP in the view appears in the strongest assignment read through tile 252 (R89). -/
theorem test_sync_stop_through_tile_252 :
    let s := node 3
    let x := { s with trip := { s.trip with
      own := 0x80000000, actions := s.trip.actions.set 31 { kind := .syncStop, groups := 8, masterStop := true } } }
    let tile := ((formView x).console.tiles.getD 252 {}).content
    tile.strongest x.trip.actions 3 = some .syncStop ∧ tile.strongest x.trip.actions 2 = some .none := by decide +kernel

/-- An accepted write and a refused one. -/
theorem meets_ActionWriteRule :
    let s := tripNode 0 0x20 []
    Due (asked s 2 6 31 []) (request s 2 6 31 []) [] .write ∧ Names (request s 2 6 31 []) .action ∧
    s.trip.actions.get? 31 = some {} := ⟨due (by decide +kernel), names (by decide +kernel), by decide +kernel⟩

theorem meets_LineMemoryReadsWhatWasStored :
    Memory.wf [((262143 : Nat), (5 : Byte))] ∧ (262143 ≤ 262143 ∧ 262143 < 262143 + [(0 : Byte)].length) ∧
    MemoryLaw (node 5) ∧ step (node 5) = .next (node 5) := by
  refine ⟨by decide, by decide, ?_, rfl⟩
  unfold MemoryLaw; decide

/-- A trigger with a free slot, with a full region, and with a capture in progress; a line-valid input low; a capture not taking
its pixels. -/
theorem meets_TriggerAndLineValidRule :
    ((fullRegion 1 [⟨0, 9⟩] none).image.ctx 1).work.triggers = ⟨0, 9⟩ :: [] ∧
    ((fullRegion 2 [⟨0, 9⟩] none).image.ctx 1).work.held = ((fullRegion 2 [⟨0, 9⟩] none).image.ctx 1).record.capacity ∧
    ((fullRegion 1 [⟨0, 9⟩] (some ⟨1, 0, 9, true⟩)).image.ctx 1).work.capture ≠ none ∧
    (node 5).image.lineValid.getLsbD 1 = false ∧
    ((fullRegion 1 [] (some ⟨1, 0, 9, false⟩)).image.ctx 1).work.capture = some ⟨1, 0, 9, false⟩ := by decide +kernel

/-- A cycle event at a SOURCE and at a context that is OFF; a grid point on the very last count of a step, and a pitch of 1, of whose
points a step of 33 counts loses one. -/
theorem meets_TriggerAndLineValidRule_event :
    let c := (fullRegion 1 [⟨0, 9⟩] none).image.ctx 1
    c.record.mode = .source ∧ 1 ≤ c.record.pitch ∧ c.work.triggers = ⟨0, 9⟩ :: [] ∧ c.work.held ≠ c.record.capacity ∧
    c.work.capture = none ∧ ((node 5).image.ctx 0).record.mode ≠ .source ∧ (4194304 : Int) ≤ 4194304 ∧
    (c.select 0 500000 0 1048576).work.triggers = [⟨1048576, 500000⟩] ∧ (c.select 0 500000 0 1048575).work.triggers = [] ∧
    (({ c with record := { c.record with pitch := 1 } } : StreamContext).select 0 500000 0 33).counters.triggerOverrun = 1 := by
  decide +kernel

/-- A line of 16 positions, one tap short and the other full; a line with a gap, a position before it and the last one behind it. -/
theorem meets_PixelsAndSegments :
    (16 % 2 = 0 ∧ [(1 : BitVec 16)].length < 16 / 2 ∧ 16 / 2 ≤ (List.replicate 8 (1 : BitVec 16)).length) ∧
    (let l : List (Option (BitVec 16)) := [some 0x1FF, none, some 3]
     l.length = 3 ∧ (filledPixels l).length = 1 ∧ capturedBytes 2 .normal l = [0xFF, 1, 0, 0, 0, 0] ∧
     capturedBytes 2 .swapped l = [1, 0xFF, 0, 0, 0, 0]) := by decide

/-- A segment that is the only one of an empty line, and the last one of a line of exactly two segments. -/
theorem meets_PixelsAndSegments_segments :
    let u := (fullRegion 1 [] none).image
    1 ≤ (u.ctx 1).record.segment ∧ fieldAt (u.memory.bytes ((u.ctx 1).record.slotAddress 0) 16) 8 2 = 0 ∧ (u.ctx 1).work.segmentsDone = 0 ∧
    1 * 1024 < 2048 ∧ 2048 ≤ (1 + 1) * 1024 ∧ segmentCount 2048 1024 = 2 := by decide +kernel

/-- A SOURCE with a held line and no segment waiting, and one with a segment waiting. -/
theorem meets_PixelsAndSegments_due :
    let s := fullRegion 1 [] none
    let free := { s with forward := { s.forward with image := [] } }
    ((free.image.ctx 1).record.mode = .source ∧ 0 < (free.image.ctx 1).work.held ∧ ∀ x ∈ free.forward.image, x.owner ≠ .segment 1) ∧
    ∃ x ∈ s.forward.image, x.owner = .segment 1 :=
  ⟨⟨by decide +kernel, by decide +kernel, fun _ h => (List.not_mem_nil h).elim⟩, _, List.mem_singleton.mpr rfl, rfl⟩

/-- A mark record that finds its mark in a line of sixteen dark pixels at 8:0. -/
def mark16 : MarkEntry :=
  { mark7 with record := { mark7.record with first := 0, last := 15, minimum := 16 } }

/-- A capture that takes pixels and one that does not; its mark record disabled, enabled and found with a correction of +50 for node 14
and for the node itself, and one that sends none. -/
theorem meets_CaptureRule :
    let s := fullRegion 1 [] (some ⟨1, pos 8 0, 9, true⟩)
    let withMark (m : MarkEntry) : State := { s with mark := { s.mark with entries := s.mark.entries.set 1 m } }
    (s.image.ctx 1).work.capture = some ⟨1, pos 8 0, 9, true⟩ ∧ (s.mark.entries.get? 1).map (fun m => m.record.enable) = some false ∧
    ((fullRegion 1 [] (some ⟨1, 0, 9, false⟩)).image.ctx 1).work.capture = some ⟨1, 0, 9, false⟩ ∧
    (withMark mark16).mark.entries.get? 1 = some mark16 ∧ mark16.record.enable = true ∧ mark16.record.node = 14 ∧
    (mark16.take (pos 8 0) (List.replicate 16 10)).2 = some 50 ∧ (mark16.take (pos 8 0) (List.replicate 15 10)).2 = none ∧
    (let m := { mark16 with record := { mark16.record with node := 5 } }
     (withMark m).mark.entries.get? 1 = some m ∧ s.hasAddress = true ∧ m.record.node = s.address) := by decide +kernel

/-- A state of the law on regions, with a SOURCE whose segment waits. -/
theorem meets_StreamRowsRule_law : RegionLaw (asked (fullRegion 2 [] none) 8 7 1 []) := lawful 1 (by decide +kernel)

/-- The law on regions where the context that a request is about is being delivered, and no other has a line to deliver next. -/
theorem meets_StreamRowsRule_chosenAnew :
    let f := follower 14
    RegionLaw (asked { f with image := { fed sink2 line120 with delivery := some ⟨2, 1000000, 1030000⟩ } } 8 7 2 []) :=
  lawful 2 (by decide +kernel)

/-- Deliveries of the context that a request is about, whose first word began 50 ns ago, begins now, and begins 7 ns from now. -/
theorem meets_StreamRowsRule_delivery : ∀ b ∈ [999950, 1000000, 1000007],
    let f := follower 14
    let s := { f with image := { fed sink2 line120 with delivery := some ⟨2, b, 1030000⟩ } }
    Due (asked s 8 7 2 []) (request s 8 7 2 []) [] .streamRestart ∧ Names (request s 8 7 2 []) .stream ∧
    s.image.delivery = some ⟨2, b, 1030000⟩ ∧ s.now = 1000000 := by
  intro b hb
  simp only [List.mem_cons, List.not_mem_nil, or_false] at hb
  rcases hb with rfl | rfl | rfl <;> exact ⟨due (by decide +kernel), names (by decide +kernel), rfl, rfl⟩

/-- The rows of STREAM at a context that is on and at one that is OFF. -/
theorem meets_StreamRowsRule :
    let s := fullRegion 2 [] none
    Due (asked s 2 7 1 []) (request s 2 7 1 []) [] .write ∧ Names (request s 2 7 1 []) .stream ∧
    Due (asked s 8 7 1 []) (request s 8 7 1 []) [] .streamRestart ∧ Names (request s 2 7 7 []) .stream ∧
    checkStreamWrite s 1 { mode := some (some .off) } = .ok ∧ checkStreamWrite s 7 { base := some 255 } = .ok ∧
    checkStreamWrite s 7 { base := some 256 } = .range ∧
    checkStreamWrite { s with image := { s.image with contexts := Table.replicate 8 {}, direction := .deliver } } 7
      { mode := some (some .sink), size := some 2, originNode := some 5 } = .ok :=
  ⟨due (by decide +kernel), names (by decide +kernel), due (by decide +kernel), names (by decide +kernel), by decide +kernel⟩

/-- A write whose mode is outside the named set, at a context in OFF and at one that is on; a row about another context than the one being
delivered. -/
theorem meets_StreamRowsRule_mode :
    let s := fullRegion 2 [] none
    let w : StreamWrite := { mode := some none }
    (Due (asked s 2 7 7 []) (request s 2 7 7 []) [] .write ∧ Names (request s 2 7 7 []) .stream ∧
      (s.image.ctx 7).still.record.mode = .off ∧ checkStreamWrite s 7 w = .range) ∧
    ((s.image.ctx 1).still.record.mode ≠ .off ∧ checkStreamWrite s 1 w = .state) ∧
    (let u := { s with image := { s.image with delivery := some ⟨2, 0, 30000⟩ } }
     u.image.delivery = some ⟨2, 0, 30000⟩ ∧ checkStreamWrite u 1 { mode := some (some .off) } = .ok ∧
     checkStreamWrite u 7 { base := some 255 } = .ok) :=
  ⟨⟨due (by decide +kernel), names (by decide +kernel), by decide +kernel⟩, by decide +kernel⟩

theorem meets_StreamWriteIsAcceptedExactly :
    7 < 8 ∧ (camera.image.ctx 0).record.mode ≠ .off ∧ (camera.image.ctx 7).record.mode = .off ∧
    checkStreamWrite camera 7 { base := some 256 } = .range ∧ checkStreamWrite camera 7 { readOnly := true } = .state ∧
    checkStreamWrite camera 2 { mode := some (some .source) } = .range ∧
    checkStreamWrite camera 1 { mode := some (some .sink), size := some 216, base := some 40 } = .state ∧
    checkStreamWrite { camera with image := { camera.image with direction := .deliver } } 1
      { mode := some (some .sink), size := some 216, base := some 40 } = .range := by decide +kernel

/-- A segment frame of line `n` from context 0 of node 5 to node 14. -/
def segmentFrame (n : BitVec 16) (index : Nat) (last : Bool) : Frame :=
  Frame.own 5 .segment 14 (.bytes (segmentPayload 2 0 n index (index * 8) last (lineHeader n 0 .complete 16) (List.replicate 8 3)))

/-- A sink of lines of 16 bytes at node 14, with `a` in assembly and `y` expected. -/
def sinkNode (a : Option Assembly) (y : Option (BitVec 16)) : State :=
  withCtx (follower 14) 2
    { record := { mode := .sink, size := 2, length := 16, originNode := 5 }
      work := { assembly := a, expectedLine := y } }

/-- The law on regions at such a sink. -/
theorem meets_SegmentFrameRule_law : RegionLaw (sinkNode (some ⟨120, 0, 0, 0, .assembling⟩) (some 120)) :=
  lawful 2 (by decide +kernel)

/-- The clauses of the rule: in assembly, the fitting segment, one that does not fit, the last one, an older line and a newer one; with
none in assembly, a segment without the first mark and an older line; a context that is OFF and a number that no context has. -/
theorem meets_SegmentFrameRule :
    let s := sinkNode (some ⟨120, 0, 0, 0, .assembling⟩) (some 120)
    (Arrives s .a (segmentFrame 120 0 false).encode (segmentFrame 120 0 false) ∧ Consumed s (segmentFrame 120 0 false)) ∧
    (s.image.ctx 2).still.work.assembly = some ⟨120, 0, 0, 0, .assembling⟩ ∧
    (let g := readSegment (segmentFrame 120 0 false).data
     g.line = 120 ∧ g.last = false ∧ g.index = 0 ∧ g.offset = 0 ∧ g.first = true ∧ g.pixels.length = 8 ∧ g.destCtx = 2 ∧ g.srcCtx = 0) ∧
    (let g := readSegment (segmentFrame 120 1 true).data
     g.last = true ∧ g.index = 1 ∧ g.offset = 8 ∧ g.first = false ∧ 8 + g.pixels.length = 16 * 1) ∧
    newer (119 : BitVec 16) 120 = false ∧ newer (121 : BitVec 16) 120 = true ∧ newer (120 + 32767 : BitVec 16) 120 = true ∧
    (sinkNode none none).image.ctx 2 = { (s.image.ctx 2) with work := {} } ∧
    ((sinkNode none (some 120)).image.ctx 2).still.work.expectedLine = some 120 ∧
    ((sinkNode (some ⟨120, 8, 1, 0, .damaged⟩) none).image.ctx 2).work.assembly = some ⟨120, 8, 1, 0, .damaged⟩ ∧
    ((follower 14).image.ctx 2).record.mode = .off ∧
    (readSegment (segmentPayload 8 0 120 0 0 true (lineHeader 120 0 .complete 0) [])).destCtx = 8 :=
  ⟨⟨arrives (by decide +kernel), consumed (by decide +kernel)⟩, by decide +kernel⟩

/-- A segment to all nodes. -/
theorem meets_SegmentFrameRule_broadcast :
    let s := sinkNode none none
    let f := { segmentFrame 120 0 false with dest := 0 }
    Arrives s .a f.encode f ∧ Consumed s f ∧ f.kind = .segment := ⟨arrives (by decide +kernel), consumed (by decide +kernel), rfl⟩

/-- A gap of exactly the free slots and one of one more, under MARK and under DROP. -/
theorem meets_GapRule :
    let c : StreamContext := { record := { mode := .sink, size := 2, length := 16 } }
    let x : SinkWork := ⟨[], c⟩
    x.ctx.work.assembly = none ∧ x.ctx.work.held ≤ x.ctx.record.capacity ∧ x.ctx.record.damaged = .mark ∧
    (segment 123 0 8).last = false ∧ ((segment 123 0 8).line - 121).toNat = x.ctx.record.capacity ∧
    ((segment 124 0 8).line - 121).toNat = x.ctx.record.capacity + 1 ∧ (segment 121 0 8).line - 121 = 0 ∧
    ({ x.ctx.record with damaged := .drop } : StreamRecord).damaged = .drop ∧ (segment 121 3 8).last = true ∧
    ({ x.ctx.work with held := 2 } : StreamWork).held = x.ctx.record.capacity ∧ x.ctx.work.held < x.ctx.record.capacity := by
  decide +kernel

/-- A first segment of exactly the bytes of a line, and of one byte more; a segment without the first mark. -/
theorem meets_GapRule_start :
    (segment 121 0 16).first = true ∧ (segment 121 0 16).index = 0 ∧ (segment 121 0 16).offset = 0 ∧
    (segment 121 0 16).pixels.length ≤ 16 * 1 ∧ ¬(segment 121 0 17).pixels.length ≤ 16 * 1 ∧ (segment 121 1 8).first = false := by
  decide

theorem meets_DeliveryRule :
    let s := { sinkNode none none with image := { (sinkNode none none).image with delivery := some ⟨2, 0, 30000⟩ } }
    s.image.delivery = some ⟨2, 0, 30000⟩ ∧ (s.image.ctx 2).record.mode = .sink ∧
    s.forward.management ++ s.forward.console ++ s.forward.image = [] ∧ s.resetHeld = false ∧
    (node 5).image.lastServed < 8 ∧ s.image.direction = .capture := by decide +kernel

/-- The port delivers: the end of a delivery of a sink with two held lines, with nothing in the class queues. -/
theorem meets_DeliveryRule_deliver :
    let u := fed sink2 (line120 ++ [segment 121 0 512, segment 121 2 512, segment 121 3 464])
    let s := { node 14 with image := { u with delivery := some ⟨2, 0, 30000⟩, lastServed := 2 } }
    s.image.delivery = some ⟨2, 0, 30000⟩ ∧ (s.image.ctx 2).record.mode = .sink ∧ s.image.direction = .deliver ∧
    s.forward.management ++ s.forward.console ++ s.forward.image = [] ∧ s.resetHeld = false ∧ (s.image.ctx 2).work.held = 2 ∧
    s.image.lastServed < 8 ∧ u.nextServed = some 2 := by decide +kernel

/-- A held line of pixels and a held notice, each of a line with an even length. -/
theorem meets_DeliveryRule_words :
    let u := fed sink2 line120
    let slot := (u.ctx 2).record.slotAddress (u.ctx 2).work.read
    (u.ctx 2).record.length % 2 = 0 ∧ u.memory.read (slot + 7) = 0 ∧
    Memory.read (u.memory.write slot (lineHeader 119 0 .missing 0)) (slot + 7) = 3 ∧ (u.deliveryWords 2).length = 1009 := by
  decide +kernel

/-- Distances of -W - 1, -W, W and W + 1, in that order, for E = 0. -/
theorem meets_MarkSearchRule :
    windowDistance (pos 7 16773119) 0 = -4097 ∧ windowDistance (pos 7 16773120) 0 = -4096 ∧ windowDistance (pos 7 4096) 0 = 4096 ∧
    windowDistance (pos 7 4097) 0 = 4097 ∧ mark7.record.window = 4096 ∧ mark7.search.found = false ∧ mark7.search.pending = false := by
  decide

theorem meets_MarkWriteRule :
    let s := ringNode 5
    Due (asked s 2 8 1 []) (request s 2 8 1 []) [] .write ∧ Names (request s 2 8 1 []) .mark ∧ s.mark.entries.get? 1 = some {} ∧
    ({} : MarkRecord).first ≤ ({} : MarkRecord).last ∧ ({} : MarkRecord).enable = false :=
  ⟨due (by decide +kernel), names (by decide +kernel), by decide +kernel⟩

/-- A good record with room in the queue and with 64 records in it, a bad one, and one within the reset; a transmitter idle and one
sending. -/
theorem meets_ConsoleLineRules :
    readConsoleRecord (InRecord.event 12 0x105 []).toBytes = some (.event 12 0x105 []) ∧ readConsoleRecord [0, 1, 2, 3] = none ∧
    (follower 3).resetEnd + 1600 ≤ (follower 3).now + 0 ∧ (node 3).now + 0 < (node 3).resetEnd + 1600 ∧
    (follower 3).console.outbound.length < 64 ∧ 64 ≤ (List.replicate 64 (InRecord.event 12 0x105 [])).length ∧
    sendingNode.console.sending = none ∧ sendingNode.console.holdIn = false ∧
    ((node 3).console.replies = [] ∧ (node 3).console.inbound = [] ∧ (node 3).console.systemQueue = 252 :: [253, 254, 255] ∧
      (node 3).console.tiles.get? 253 = some (resetTile 3 (shownAxes (node 3))) ∧
      (node 3).console.tiles.get? 254 = some (resetTile 3 (shownRing (node 3))) ∧
      (node 3).console.tiles.get? 255 = some (resetTile 3 (shownStreams (node 3)))) := by decide +kernel

/-- The columns of the routing table: the node itself, another node, a broadcast, and destination 63. -/
theorem meets_RecordRoutingRule :
    let s := follower 3
    s.hasAddress = true ∧ s.addressByte = 3 ∧ ¬(62 < (62 : Byte).toNat) ∧ 62 < (63 : Byte).toNat ∧
    ({ s.console with outbound := [.tile 0 17 1 [1], .event 12 1 []] } : ConsoleUnit).outbound = .tile 0 17 1 [1] :: [.event 12 1 []] ∧
    s.forward.console = [] ∧ s.forward.management = [] ∧
    (node 0).hasAddress = false ∧ (node 63).hasAddress = false ∧ (node 62).hasAddress = true ∧ (node 1).hasAddress = true := by
  decide +kernel

/-- The frame of kind `k` from node 3 to `dest`. -/
def consoleFrame (k : FrameKind) (dest : Byte) (data : List Byte) : Frame := Frame.own 3 k dest (.bytes data)

/-- The last ordinary tile and the first system tile; a frame of each of the four kinds that arrives for this node and for all; a WRITE
of tile 251. -/
theorem meets_TileAndEventRules :
    let s := follower 12
    s.console.tiles.get? 251 = some {} ∧ (s.console.tiles.get? 252).isSome = true ∧
    (∀ x ∈ [consoleFrame .tile 12 (tilePayload 251 42 [1]), consoleFrame .tile 0 (tilePayload 251 42 [1]),
        consoleFrame .event 12 (eventPayload 0x105 []), consoleFrame .event 0 (eventPayload 0x105 []),
        consoleFrame .refusal 12 (refusalPayload 3 0x105 .full), consoleFrame .refusal 0 [3, 1, 5, 2],
        consoleFrame .answer 12 [0, 7, 0], consoleFrame .answer 0 [0, 7, 0, 9]],
      Arrives s .a x.encode x ∧ Consumed s x) ∧
    s.console.inbound.length < 32 ∧ 32 ≤ (List.replicate 32 (⟨1, 1, []⟩ : OperatorEvent)).length ∧
    Due (asked s 2 9 251 []) (request s 2 9 251 []) [] .write ∧ Names (request s 2 9 251 []) .tile := by
  refine ⟨by decide +kernel, by decide +kernel, fun x hx => ?_, by decide +kernel, by decide +kernel, due (by decide +kernel),
    names (by decide +kernel)⟩
  simp only [List.mem_cons, List.not_mem_nil, or_false] at hx
  rcases hx with rfl | rfl | rfl | rfl | rfl | rfl | rfl | rfl <;>
    exact ⟨arrives (by decide +kernel), consumed (by decide +kernel)⟩

/-- The node's own frames back on the receiver of port A, in a closed ring and in a line. -/
theorem meets_TileAndEventRules_returned :
    let s := follower 3
    (∀ x ∈ [consoleFrame .tile 12 (tilePayload 251 42 [1]), consoleFrame .tile 0 (tilePayload 251 42 [1]),
        consoleFrame .event 12 (eventPayload 0x105 []), consoleFrame .refusal 12 (refusalPayload 3 0x105 .full)],
      Arrives s .a x.encode x ∧ x.origin = s.addressByte) ∧
    s.hasAddress = true ∧ ¬((PortId.a = .b) ∧ s.forward.ring = .ring) := by
  refine ⟨fun x hx => ?_, by decide +kernel⟩
  simp only [List.mem_cons, List.not_mem_nil, or_false] at hx
  rcases hx with rfl | rfl | rfl | rfl <;> exact ⟨arrives (by decide +kernel), by decide +kernel⟩

/-- The frame of kind `k` from node 2 to `dest`, with `hop` as its hop budget. -/
def passing (k : FrameKind) (dest hop : Byte) (data : List Byte) : Frame := { Frame.own 2 k dest (.bytes data) with hop := hop }

/-- Bytes that fail the checks, a malformed frame, and events and a correction with hop budget 0, on a port that is UP with 6, with 7 errors
counted, before the last frame of a window and in it; and on one that is not UP. -/
theorem meets_ForwardingRule_checks :
    (receive [] = .error ∧ receive (passing .trip 0 127 [1]).encode = .malformed) ∧
    (∀ x ∈ [passing .event 5 0 [1, 5], passing .event 0 0 [1, 5], passing .correction 9 0 [0, 0, 0, 0, 1]],
      receive x.encode = .frame x ∧ x.hop = 0) ∧
    (∀ n ∈ [6, 7], ∀ m ∈ [1022, 1023], let l := { upLink with errors := n, frames := m }
      l.state = .up ∧ l.errors < 8 ∧ (n = 6 → l.errors < 7) ∧ (m = 1023 → 1024 ≤ l.frames + 1) ∧ (m = 1022 → ¬1024 ≤ l.frames + 1)) ∧
    ((node 5).port .a).link.state ≠ .up ∧ (ringNode 5).hasAddress = true ∧ (ringNode 0).hasAddress = false := by decide +kernel

/-- A frame for node 9 at node 5 whose transit FIFO it fills exactly, and one byte too small; at a node without an address; and the node's
own frame on its receiver B in a closed ring. -/
theorem meets_ForwardingRule :
    let s := ringNode 5
    let f := passing .correction 9 127 [0, 0, 0, 0, 1]
    let q (n : Nat) : FibrePort := { link := upLink, transit := [passing .segment 9 127 (List.replicate n 0)] }
    (Arrives s .a f.encode f ∧ f.kind ≠ .cycle ∧ f.kind ≠ .trip ∧ f.origin ≠ s.addressByte ∧ f.dest ≠ s.addressByte ∧ f.dest ≠ 0 ∧
      f.kind ≠ .claim) ∧
    (outPort s.forward.ring .a = some .b ∧ (q 16355).transitBytes + f.length = 16384 ∧ 16384 < (q 16356).transitBytes + f.length) ∧
    (Arrives (ringNode 63) .b f.encode f ∧ (ringNode 63).hasAddress = false) ∧
    (Arrives (ringNode 2) .b f.encode f ∧ (ringNode 2).hasAddress = true ∧ f.origin = (ringNode 2).addressByte ∧
      (ringNode 2).forward.ring = .ring) :=
  ⟨⟨arrives (by decide +kernel), by decide +kernel⟩, by decide +kernel, ⟨arrives (by decide +kernel), by decide +kernel⟩,
    arrives (by decide +kernel), by decide +kernel⟩

/-- A trip frame and a cycle frame of other nodes to all, with and without an address here; a trip frame for node 9; and the node's own trip,
segment, correction and answer frames back on receiver A. -/
theorem meets_ForwardingRule_passes :
    RingLaw (ringNode 5) ∧ RingLaw (ringNode 0) ∧ (ringNode 0).hasAddress = false ∧ (ringNode 5).hasAddress = true ∧
    (∀ x ∈ [passing .trip 0 127 [1, 0, 0, 0, 2], passing .trip 9 127 [1, 0, 0, 0, 2], copy41],
      Arrives (ringNode 5) .a x.encode x ∧ Arrives (ringNode 0) .a x.encode x ∧ x.origin ≠ (ringNode 5).addressByte ∧
        x.dest ≠ (ringNode 5).addressByte) ∧
    ∀ x ∈ [passing .trip 0 127 [1, 0, 0, 0, 2], passing .segment 9 127 (List.replicate 8 0), passing .correction 9 127 [0, 0, 0, 0, 1],
        passing .answer 9 127 [0, 7, 0]],
      Arrives (ringNode 2) .a x.encode x ∧ x.origin = (ringNode 2).addressByte ∧ ¬((PortId.a = .b) ∧ (ringNode 2).forward.ring = .ring) := by
  refine ⟨by unfold RingLaw; decide, by unfold RingLaw; decide, by decide, by decide, fun x hx => ?_, fun x hx => ?_⟩ <;>
    simp only [List.mem_cons, List.not_mem_nil, or_false] at hx
  · rcases hx with rfl | rfl | rfl <;> exact ⟨arrives (by decide +kernel), arrives (by decide +kernel), by decide +kernel⟩
  · rcases hx with rfl | rfl | rfl | rfl <;> exact ⟨arrives (by decide +kernel), by decide +kernel⟩

/-- Node 5 in a closed ring whose port B ends a frame, with a line held by context 1 and its segment waiting. -/
def sendingSegment (horizon : Time) (console management : List ClassEntry) : State :=
  let s := fullRegion 1 [] none
  { s with
    portA := { link := upLink }
    portB := { link := upLink, sending := some ⟨Frame.own 5 .correction 9 (.bytes [0, 0, 0, 0, 1]), 1000, false, false⟩ }
    forward := { s.forward with ring := .ring, horizon := horizon, console := console, management := management } }

/-- A port that ends a frame and is not UP, one that is not the own-send port, and the own-send port of a closed ring. -/
theorem meets_ForwardingRule_end :
    let s := sendingSegment 9000 [] []
    (s.port .b).sending.isSome = true ∧ (s.port .b).link.state = .up ∧ ownSendPort s.forward.ring = some .b ∧
    ((node 5).port .a).link.state ≠ .up ∧ ownSendPort s.forward.ring ≠ some .a ∧
    (s.port .b).trips = [] ∧ (s.port .b).cycles = [] ∧ (s.port .b).transit = [] := by decide +kernel

/-- The heads of the three classes that may start, under the law on regions, up to the very horizon; and one that it holds back. -/
theorem meets_ForwardingRule_classes :
    let tile : ClassEntry := ⟨Frame.own 5 .tile 14 (.bytes (List.replicate 67 1)), .consoleFrame⟩
    let claim : ClassEntry := ⟨Frame.own 5 .claim 0 (.bytes [5, 6, 1, 0]), .election⟩
    let piece : ClassEntry := ⟨Frame.own 5 .segment 14 (.bytes []), .segment 1⟩
    let f (t : Time) := (sendingSegment t [] []).forward
    RegionLaw (sendingSegment 9000 [] []) ∧ piece.frame.time .full = 48 ∧
    MayStart (f 1048) 1000 .full .image piece ∧ HeldByHorizon (f 1047) 1000 .full .image ∧
    (∀ e, ¬MayStart (f 1048) 1000 .full .management e) ∧ (∀ e, ¬MayStart (f 1048) 1000 .full .console e) ∧
    (∀ e, ¬MayStart (f 1047) 1000 .full .image e) ∧
    MayStart (sendingSegment 9000 [tile] []).forward 1000 .full .console tile ∧
    MayStart (sendingSegment 9000 [] [claim]).forward 1000 .full .management claim := by
  refine ⟨lawful 1 (by decide +kernel), by decide, ?_, ⟨_, rfl, ?_, ?_⟩, fun e h => (nomatch h.1), fun e h => (nomatch h.1), ?_, ?_, ?_⟩
  case refine_4 =>
    intro e h
    have x := h.1
    injection x with x
    subst x
    exact absurd h.2.2 (by decide +kernel)
  all_goals ((try unfold MayStart); (try unfold FitsAccounts); decide +kernel)

/-- The claim of a node with priority `p` and attempt number `a`, from node 2 on the ring. -/
def claimFrame (claimer p a floor : Byte) : Frame := Frame.own 2 .claim 0 (.bytes [claimer, p, a, floor])

/-- The fourth and the fifth attempt over, and the own claim back with and without a claim waiting. -/
theorem meets_ElectionRules :
    let s := losing { state := .claiming, claimTimer := some 20000000, attempts := 4 }
    let f := Frame.own 5 .claim 0 (.bytes [5, 6, 1, 0])
    (s.election.state = .claiming ∧ s.election.claimTimer = some 20000000 ∧ s.election.attempts < 5) ∧
    (let l := losing { state := .listening, listenTimer := some 9, attempts := 5 }
     l.election.state = .listening ∧ l.election.listenTimer = some 9 ∧ 5 ≤ l.election.attempts) ∧
    (Arrives s .a f.encode f ∧ s.hasAddress = true ∧ f.origin = s.addressByte ∧ f.kind = .claim ∧
      ¬((PortId.a = .b) ∧ s.forward.ring = .ring)) ∧
    (s.election.state = .claiming ∧ byteAt f.data 2 ≠ 0) ∧ (ringNode 5).election.state ≠ .claiming :=
  ⟨by decide +kernel, by decide +kernel, ⟨arrives (by decide +kernel), by decide +kernel⟩, by decide +kernel⟩

/-- Claims at node 5 with priority 6: bad ones at the ends of both ranges, good ones there, a weaker, a stronger and a conflict claim, and
one with the node's own address as claimer; at a node in each state of the election, with both ports FULL and with one REDUCED. -/
theorem meets_ElectionRules_claims :
    let s := losing { state := .master }
    (∀ x ∈ [claimFrame 0 6 1 0, claimFrame 63 6 1 0, claimFrame 9 0 1 0, claimFrame 9 16 1 0, claimFrame 62 6 1 0, claimFrame 4 6 0 0,
        claimFrame 1 1 1 0, claimFrame 9 15 0 0, claimFrame 5 15 0 0],
      Arrives s .a x.encode x ∧ x.origin ≠ s.addressByte) ∧
    s.hasAddress = true ∧ s.election.priority = 6 ∧ s.address = 5 ∧ s.election.state = .master ∧
    (∀ y, (losing { state := y }).election.state = y) ∧ ¬SlowPort s ∧ SlowPort (horizonNode []) := by
  refine ⟨fun x hx => ?_, by decide +kernel, by decide, by decide, rfl, fun _ => rfl, fun ⟨p, h⟩ => ?_, .b, by decide +kernel⟩
  · simp only [List.mem_cons, List.not_mem_nil, or_false] at hx
    rcases hx with rfl | rfl | rfl | rfl | rfl | rfl | rfl | rfl | rfl <;> exact ⟨arrives (by decide +kernel), by decide +kernel⟩
  · cases p <;> exact absurd h.2 (by decide)

/-- A foreign copy at a master with no conflict claim placed and with one; a copy heard in each other state, and at a node without an
address. -/
theorem meets_ElectionRules_copies :
    (∀ b, let s := { masterNode 5 with election := { (masterNode 5).election with conflictPlaced := b } }
      Arrives s .a copy41.encode copy41 ∧ Consumed s copy41 ∧ s.election.state = .master ∧ s.election.conflictPlaced = b) ∧
    (∀ y, Arrives (losing { state := y }) .a copy41.encode copy41 ∧ Consumed (losing { state := y }) copy41 ∧
      (losing { state := y }).election.state = y) ∧
    Arrives (follower 0) .a copy41.encode copy41 ∧ (follower 0).hasAddress = false ∧ (follower 0).election.state ≠ .master :=
  ⟨fun _ => ⟨arrives meets_copy.1, consumed meets_copy.2, rfl, rfl⟩, fun _ => ⟨arrives meets_copy.1, consumed meets_copy.2, rfl⟩,
    arrives (by decide +kernel), by decide +kernel⟩
where
  meets_copy :
      ((upLink.state == .up && decide (upLink.errors < 8) && receive copy41.encode == .frame copy41 && copy41.hop != 0) = true) ∧
      ((ringNode 5).hasAddress && copy41.origin != (ringNode 5).addressByte &&
        (copy41.dest == (ringNode 5).addressByte || copy41.dest == 0) && copy41.kind != .claim) = true := by decide +kernel

theorem meets_LinkEventRules :
    ((node 7).port .a).link.state = .acquire ∧ ((node 7).port .a).link.watchdog = some 2000000 ∧
    ({ (node 7).portA.link with attempt := 8 } : Link).attempt ≥ 8 ∧
    ({ (node 7).portA.link with watchdog := none, retry := some 9 } : Link).retry = some 9 ∧ (identityRecord 8 .a).length = 4 ∧
    ((ringNode 7).port .a).link.state = .up ∧ ((ringNode 7).port .a).link.identity = none ∧
    ((setLink (node 7) .a { (node 7).portA.link with identity := some 4 }).port .a).link.identity = some 4 ∧
    ((node 7).elapse 20020).now = 4 + 10000 * 2 + 16 ∧ (node 7).resetHeld = false ∧
    ((setLink (ringNode 7) .a { upLink with identity := some 0 }).port .a).link.identity = some 0 ∧
    (ringNode 7).now < 0 + 16 ∧ 0 + 16 ≤ ((ringNode 7).elapse 16).now ∧
    (identityRecord 8 .a).drop 2 = beBytes 2 (crc16 ((identityRecord 8 .a).take 2)).toNat ∧
    (let m := (setLink (node 7) .a { (node 7).portA.link with identity := some 4 }).portA.link
     m.state = .acquire ∧ m.watchdog ≠ none ∧ m.identity ≠ none) ∧ (node 7).portA.link.identity = none ∧
    ({ upLink with state := .disabled } : Link).state = .disabled := by decide +kernel

/-- Attempts 7, 8 and 255 waiting for lock, each with a watchdog and with lock gained and lost. -/
theorem meets_LinkEventRules_attempts : ∀ n ∈ [7, 8, 255],
    let s := setLink (node 7) .a { (node 7).portA.link with attempt := n, identity := some 4, watchdog := some 2000000 }
    (s.port .a).link.state = .acquire ∧ (s.port .a).link.watchdog = some 2000000 ∧ (s.port .a).link.identity ≠ none ∧
    (s.port .a).link.attempt = n ∧ s.resetHeld = false := by decide +kernel

/-- R186: lock lost in attempt 3 fails it as the watchdog does; attempt 4 starts at REDUCED and latches downgraded. -/
theorem test_lock_lost_in_attempt :
    after (.lockLost 7 .a) (setLink (node 7) .a { (node 7).portA.link with attempt := 3, identity := some 4 }) (fun t =>
      (t.portA.link.attempt, t.portA.link.rate, t.portA.link.watchdog, t.portA.link.counters.downgraded,
        t.portA.link.counters.attemptFailed)) = some (4, .reduced, some 2000007, true, 1) := by decide +kernel

/-- A node in LISTENING whose listen timer of 40 ms has been started: its one UP port loses lock, and the timer stops; an identity record
ends ISOLATED, and the timer starts again (R176); the frame that waited in the console class starts there (R165). -/
theorem meets_LinkEventRules_ring :
    let e : ElectionUnit := { state := .listening, priority := 3, listenTimer := some 40000000, listenValue := 40000000 }
    let f : ClassEntry := ⟨Frame.own 7 .event 9 (.bytes [0, 1]), .consoleFrame⟩
    let s := { ringNode 7 with election := e, forward := { (ringNode 7).forward with ring := .lineA }, portB := (node 7).portB }
    let u := { node 7 with
      election := { e with listenTimer := none }
      forward := { (node 7).forward with console := [f] }
      portB := { link := { (node 7).portB.link with identity := some 0 } } }
    (s.port .a).link.state = .up ∧ s.election.state = .listening ∧ u.forward.ring = .isolated ∧
    after (.lockLost 5 .a) s (fun t => (t.forward.ring, t.election.listenTimer)) = some (.isolated, none) ∧
    after (.identityRecordIn 5 .b (identityRecord 8 .a)) u (fun t => (t.forward.ring, t.election.listenTimer)) =
      some (.lineB, some 40000005) ∧
    after (.identityRecordIn 5 .b (identityRecord 8 .a)) u (fun t =>
      (t.forward.console == [], t.portB.sending.map fun y => y.frame)) = some (true, some f.frame) := by decide +kernel

/-- A RING RESTART where the trip view is what its contributions make. -/
theorem meets_PortAndRingRequestRules_law : TripLaw (asked (masterNode 1) 10 0 0 []) := by
  unfold TripLaw
  decide +kernel

/-- A RING RESTART at a master that sends a frame, and one that has sent V and Vt. -/
theorem meets_PortAndRingRequestRules_sending :
    let s := { horizonNode [] with
      election := { state := .master, priority := 9 }, cycle := { (horizonNode []).cycle with sentSpeed := some (5, 6) } }
    Due (asked s 10 0 0 []) (request s 10 0 0 []) [] .ringRestart ∧ (asked s 10 0 0 []).election.state = .master ∧
    (s.port .b).sending.isSome = true ∧ (asked s 10 0 0 []).cycle.sentSpeed = some (5, 6) ∧ (masterNode 1).cycle.sentSpeed = none :=
  ⟨due (by decide +kernel), by decide +kernel⟩

/-- A RING RESTART at a node whose sink is being delivered; at one with a running source whose mark record is pending and found, and whose
other context is OFF with a mark record too. -/
theorem meets_PortAndRingRequestRules_streams :
    let u := { follower 14 with image := { fed sink2 line120 with delivery := some ⟨2, 999950, 1030000⟩ } }
    let m : MarkEntry := { mark7 with search := { mark7.search with pending := true, found := true } }
    let s := { fullRegion 1 [] none with mark := { entries := (Table.replicate 2 m) } }
    (Due (asked u 10 0 0 []) (request u 10 0 0 []) [] .ringRestart ∧ u.image.delivery = some ⟨2, 999950, 1030000⟩ ∧
      (u.image.ctx 2).record.mode ≠ .off ∧ u.image.direction = .deliver) ∧
    Due (asked s 10 0 0 []) (request s 10 0 0 []) [] .ringRestart ∧ (s.image.ctx 1).record.mode ≠ .off ∧
    (s.image.ctx 0).record.mode = .off ∧ s.mark.entries.get? 0 = some m ∧ s.mark.entries.get? 1 = some m :=
  ⟨⟨due (by decide +kernel), by decide +kernel⟩, due (by decide +kernel), by decide +kernel⟩

/-- R117, R182: a RING RESTART clears the pending and found marks of a running context and keeps its record and miss count; R137: the delivery
ends, and line-valid with the word then on the lines. -/
theorem test_ring_restart_streams :
    let u := { follower 14 with image := { fed sink2 line120 with delivery := some ⟨2, 999950, 1030000⟩ } }
    let m : MarkEntry := { mark7 with search := { mark7.search with pending := true, found := true, miss := 2 } }
    let s := { fullRegion 1 [] none with mark := { entries := (Table.replicate 2 {}).set 1 m } }
    after (.ringRestart 0) (asked u 10 0 0 []) (fun t =>
      (t.image.delivery, t.image.released, (t.image.ctx 2).counters.deliveryAborted, (t.image.ctx 2).work.held))
      = some (none, some 1000010, 1, 0) ∧
    after (.ringRestart 0) (asked s 10 0 0 []) (fun t => t.mark.entries.get? 1)
      = some (some { mark7 with search := { mark7.search with miss := 2 } }) := by decide +kernel

theorem meets_PortAndRingRequestRules :
    let s := masterNode 1
    (Due (asked s 2 10 1 []) (request s 2 10 1 []) [] .write ∧ Names (request s 2 10 1 []) .port) ∧
    (Due (asked s 9 10 0 []) (request s 9 10 0 []) [] .retrain ∧ Names (request s 9 10 0 []) .port) ∧
    Due (asked s 10 0 0 []) (request s 10 0 0 []) [] .ringRestart ∧ Due (asked s 11 0 0 []) (request s 11 0 0 []) [] .nodeReset :=
  ⟨⟨due (by decide +kernel), names (by decide +kernel)⟩, ⟨due (by decide +kernel), names (by decide +kernel)⟩,
    due (by decide +kernel), due (by decide +kernel)⟩

/-- A disable and a RETRAIN of a port that is UP and of one in ACQUIRE, and an enable of one that is DISABLED. -/
theorem meets_PortAndRingRequestRules_links :
    let s := masterNode 1
    let q := setLink s .a { s.portA.link with state := .acquire, watchdog := some 2000000 }
    let d := setLink s .a { s.portA.link with state := .disabled, enabled := false }
    (∀ x ∈ [s, q, d], Due (asked x 2 10 0 []) (request x 2 10 0 []) [] .write ∧ Names (request x 2 10 0 []) .port ∧
      Due (asked x 9 10 0 []) (request x 9 10 0 []) [] .retrain ∧ Names (request x 9 10 0 []) .port) ∧
    (s.port .a).link.state = .up ∧ (q.port .a).link.state = .acquire ∧ (d.port .a).link.state = .disabled := by
  refine ⟨fun x hx => ?_, by decide +kernel⟩
  simp only [List.mem_cons, List.not_mem_nil, or_false] at hx
  rcases hx with rfl | rfl | rfl <;>
    exact ⟨due (by decide +kernel), names (by decide +kernel), due (by decide +kernel), names (by decide +kernel)⟩

/-- The head a row takes, in an agent that is free; a denied one, an unknown item, an index one beyond the axes; a request kind
beyond the eleven. -/
theorem meets_RequestsAreTakenAndChecked :
    let s := ringNode 5
    rowOf (.enable 0) = some (.axis, fun r => r.commands .enable) ∧ agentFree (asked s 6 2 15 [1]) = true ∧
    (request s 6 2 15 [1]).commands .enable = true ∧ permitted s (request s 6 2 15 [1]) = true ∧
    permitted { s with agent := { s.agent with permit := 1 } } (request s 6 2 15 [1]) = false ∧
    (request s 6 13 0 [1]).itemOf = none ∧ (request s 6 2 16 [1]).entry = Item.axis.entries ∧ (request s 12 0 0 []).kindOf = none :=
  ⟨rfl, by decide +kernel⟩

/-- Data one byte too short for a SET SPEED and for a TRIP RESET, an AXIS request without a command and one with the first number behind the
five; and a WRITE with too short data. -/
theorem meets_RequestsAreTakenAndChecked_short :
    let s := ringNode 5
    (request s 7 0 0 [0, 0, 0, 1, 0]).data.length < 6 ∧ (request s 4 0 0 [0, 0, 2]).data.length < 4 ∧
    (∀ x ∈ [request s 6 2 4 [], request s 6 2 4 [6], request s 6 2 4 [0]], x.commands .enable = true ∧ x.commands .release = true ∧
      x.itemOf = some .axis ∧ x.entry < Item.axis.entries) ∧
    rowOf (.setSpeed 0) = some (.setSpeed, fun r => r.isKind .setSpeed) ∧
    rowOf (.tripReset 0) = some (.tripReset, fun r => r.isKind .tripReset) ∧ isShortWrite (.axisWrite 0 none) = true :=
  ⟨by decide, by decide, by decide, rfl, rfl, rfl⟩

/-- A READ request of node `origin` to `dest`. -/
def requestFrame (origin dest : Byte) : Frame := Frame.own origin .request dest (.bytes (requestPayload 7 1 1 0 []))

/-- Requests for this node and for all, of the first and the last address and of the bad origins beside them; a queue of 7 and one of 8; and
the node's own request back. -/
theorem meets_RequestsAreTakenAndChecked_frames :
    let s := ringNode 5
    (∀ x ∈ [requestFrame 1 5, requestFrame 62 0, requestFrame 0 5, requestFrame 63 5],
      Arrives s .a x.encode x ∧ Consumed s x ∧ x.kind = .request) ∧
    (∀ x ∈ [requestFrame 5 9, requestFrame 5 0],
      Arrives s .a x.encode x ∧ s.hasAddress = true ∧ x.origin = s.addressByte ∧ ¬((PortId.a = .b) ∧ s.forward.ring = .ring)) ∧
    (List.replicate 7 (request s 1 1 0 [])).length < 8 ∧ 8 ≤ (List.replicate 8 (request s 1 1 0 [])).length := by
  refine ⟨fun x hx => ?_, fun x hx => ?_, by decide, by decide⟩ <;> simp only [List.mem_cons, List.not_mem_nil, or_false] at hx
  · rcases hx with rfl | rfl | rfl | rfl <;> exact ⟨arrives (by decide +kernel), consumed (by decide +kernel), rfl⟩
  · rcases hx with rfl | rfl <;> exact ⟨arrives (by decide +kernel), by decide +kernel⟩

theorem meets_ReadAndPlainWriteRules :
    let s := ringNode 5
    (Due (asked s 1 2 15 []) (request s 1 2 15 []) [] .read ∧ Names (request s 1 2 15 []) .axis) ∧
    (Due (asked s 1 12 11 []) (request s 1 12 11 []) [] .read ∧ Names (request s 1 12 11 []) .counters) ∧
    (Names (request s 1 1 0 []) .node ∧ Names (request s 1 7 7 []) .stream ∧ Names (request s 1 10 0 []) .port ∧
      Names (request s 1 10 1 []) .port ∧ Names (request s 1 11 0 []) .view ∧ Names (request s 1 12 0 []) .counters) ∧
    (Due (asked s 3 12 0 []) (request s 3 12 0 []) [] .readClear ∧ Names (request s 3 12 0 []) .counters) ∧
    (Due (asked s 3 12 11 []) (request s 3 12 11 []) [] .readClear ∧ Names (request s 3 12 11 []) .counters) ∧
    (Due (asked s 2 3 127 []) (request s 2 3 127 []) [] .write ∧ Names (request s 2 3 127 []) .term) ∧
    Names (request s 2 4 0 []) .programLength ∧ Names (request s 2 11 0 []) .view ∧ Item.readOnly .view = true :=
  ⟨⟨due (by decide +kernel), names (by decide +kernel)⟩, ⟨due (by decide +kernel), names (by decide +kernel)⟩,
    ⟨names (by decide +kernel), names (by decide +kernel), names (by decide +kernel), names (by decide +kernel),
      names (by decide +kernel), names (by decide +kernel)⟩,
    ⟨due (by decide +kernel), names (by decide +kernel)⟩,
    ⟨due (by decide +kernel), names (by decide +kernel)⟩, ⟨due (by decide +kernel), names (by decide +kernel)⟩,
    names (by decide +kernel), names (by decide +kernel), by decide +kernel⟩

/-- A frame at each end of its kind's range, and records at the ends of theirs. -/
theorem meets_WhatIsSentIsReceived :
    FrameKind.event.lengths = (2, 18) ∧ (eventPayload 1 []).length = 2 ∧ (eventPayload 1 (List.replicate 16 0)).length = 18 ∧
    1 ≤ [(7 : Byte)].length ∧ (List.replicate 64 (7 : Byte)).length ≤ 64 ∧ handed11.axis < 16 ∧ -8388608 ≤ handed11.feed ∧
    (lineHeader 120 0 .complete 16).length = 16 := by decide

/-- Bytes that pass the checks of R156: a trip frame, with a byte behind its CRC-32 too; one of a kind that is none; one too long. -/
theorem meets_WhatIsSentIsReceived_checks :
    (∀ l ∈ [(passing .trip 0 127 [1, 0, 0, 0, 2]).encode, (passing .trip 0 127 [1, 0, 0, 0, 2]).encode ++ [9],
        (passing .trip 0 127 [1, 0, 0, 0, 2, 3]).encode],
      8 ≤ l.length ∧ (l.drop 6).take 2 = beBytes 2 (crc16 (l.take 6)).toNat ∧ fieldAt l 4 2 ≤ 1100 ∧ fieldAt l 4 2 + 12 ≤ l.length ∧
      (l.drop (8 + fieldAt l 4 2)).take 4 = beBytes 4 (crc32 (l.take (8 + fieldAt l 4 2))).toNat ∧
      FrameKind.ofCode (byteAt l 0) = some .trip) ∧ FrameKind.ofCode 0 = none := by decide +kernel

/-- Node 5 after a reset, with a substitute cycle waiting. -/
def waiting : State := (node 5).withPending [.substituteCycle]

/-- Its next step answers a next state. -/
theorem waiting_runs : (after .substituteCycle waiting fun t => t.cycle.number) = some 1 := by decide +kernel

theorem meets_EveryStepKeepsTheAxisAndTripLaws : AxisLaw waiting ∧ TripLaw waiting := by
  unfold AxisLaw TripLaw AxisEntry.law
  decide +kernel

theorem meets_EveryStepKeepsTheRingAndElectionLaws : RingLaw waiting ∧ ElectionLaw waiting := by
  unfold RingLaw ElectionLaw
  decide +kernel

theorem meets_EveryStepKeepsTheQueueLawsAndMovesTheQueues : QueueLaw waiting ∧ DeliveryLaw waiting ∧ AllowanceLaw waiting := by
  refine ⟨?_, ⟨by decide +kernel, fun n => ?_⟩, by unfold AllowanceLaw; decide +kernel⟩
  · refine ⟨?_, ?_, ?_, ?_, ?_, ?_, ?_, fun p => ?_⟩
    on_goal 8 => cases p
    all_goals decide +kernel
  · by_cases h : n < 256
    · have all : ∀ m < 256, (m ∈ waiting.console.systemQueue ++ waiting.console.ordinaryQueue ↔
          (waiting.console.tiles.get? m).any (fun t => t.state == .dirty) = true) := by decide +kernel
      exact all n h
    · have none : waiting.console.tiles.get? n = none := by
        refine List.getElem?_eq_none ?_
        rw [waiting.console.tiles.size]
        omega
      rw [none]
      refine ⟨fun m => ?_, fun m => by cases m⟩
      have lt : ∀ m ∈ waiting.console.systemQueue ++ waiting.console.ordinaryQueue, m < 256 := by decide +kernel
      exact absurd (lt n m) h

/-- A command that is no reset in a state whose port sends and whose class queues hold frames: an AXIS write leaves them all. -/
theorem meets_EveryStepKeepsTheQueueLawsAndMovesTheQueues_queues :
    let s := asked (horizonNode [⟨Frame.own 5 .event 9 (.bytes [0, 1]), .consoleFrame⟩]) 2 2 0 []
    ¬Resets (.axisWrite 0 (some { slew := some 9 })) s ∧ s.resetHeld = false ∧
    after (.axisWrite 0 (some { slew := some 9 })) s (fun t =>
        (t.forward.console == s.forward.console && t.forward.image == s.forward.image, t.portB.sending == s.portB.sending,
          (axisOf t 0).slew)) = some (true, true, 9) := by
  refine ⟨?_, by decide +kernel, by decide +kernel⟩
  rintro (⟨dt, x, h⟩ | ⟨x, h, -⟩) <;> cases h

theorem meets_EveryStepKeepsTheSourceAndTileLaws : SourceLaw waiting ∧ TileLaw waiting ∧ ¬Resets .substituteCycle waiting := by
  refine ⟨by unfold SourceLaw; decide +kernel, by unfold TileLaw; decide +kernel, ?_⟩
  rintro (⟨dt, x, h⟩ | ⟨x, h, -⟩) <;> cases h

theorem meets_EveryStepKeepsTheRegionLaw : RegionLaw waiting := lawful 0 (by decide +kernel)

end Sys2Proof.Tests
end

/-!
PROOFS. The family of chapter 2: STOP in each state of the axis (R37) and the slew of the applied offset (R29).
-/
namespace Sys2Proof.Machine

/-! ### The computation of one axis (R26 to R33) -/

section Compute
variable (e : AxisEntry) (step : Int)

theorem AxisEntry.compute_of_follow (h : e.state = .follow) : e.compute step = e.computeFollow step := by
  unfold AxisEntry.compute; rw [h]

theorem AxisEntry.compute_of_stopping (h : e.state = .stopping) : e.compute step = e.computeStopping := by
  unfold AxisEntry.compute; rw [h]

/-- No computation moves the target of the slew. -/
@[simp] theorem AxisEntry.compute_target : (e.compute step).target = e.target := by
  unfold AxisEntry.compute
  cases e.state <;> rfl

/-- In every state but OFF the applied offset is slewed (R29). -/
theorem AxisEntry.compute_offset (h : e.state ≠ .off) : (e.compute step).offset = e.slewed := by
  unfold AxisEntry.compute
  cases hs : e.state with
  | off => exact absurd hs h
  | disabled => rfl
  | follow => rfl
  | stopping => rfl
  | stopped => rfl

/-- The v of an axis in FOLLOW is the last q (R27). -/
theorem AxisEntry.compute_v_of_follow (h : e.state = .follow) : (e.compute step).v = e.gearQuot step := by
  rw [e.compute_of_follow step h]; rfl

end Compute

theorem approach_of_le {x goal : Int} {rate : Nat} (h : (goal - x).natAbs ≤ rate) : approach x goal rate = goal :=
  if_pos h

theorem approach_of_lt {x goal : Int} {rate : Nat} (h : rate < (goal - x).natAbs) :
    approach x goal rate = if x < goal then x + rate else x - rate :=
  if_neg (Nat.not_le.mpr h)

@[simp] theorem slowDown_zero (d : Nat) : slowDown 0 d = 0 := approach_of_le (Nat.zero_le d)

@[simp] theorem wrap32_zero : wrap32 0 = 0 := rfl

/-- An axis that stops at rest is STOPPED after its next computation, and its base setpoint stays (R31). -/
theorem AxisEntry.compute_stopping_at_rest (e : AxisEntry) (step : Int) (h : e.state = .stopping) (hv : e.v = 0) :
    (e.compute step).state = .stopped ∧ (e.compute step).base = e.base := by
  rw [e.compute_of_stopping step h]
  simp [AxisEntry.computeStopping, AxisEntry.output, hv]

/-! ### The answer to an AXIS request -/

/-- A record in the reply queue touches the console unit alone (R195). -/
theorem placeReply_keeps (s : State) (x : Reply) : KeepsAllBut [.console] s (placeReply s x) := by
  refine ⟨fun b hb => ?_, rfl, rfl, rfl, rfl⟩
  cases b
  case console => exact absurd (List.mem_singleton_self _) hb
  all_goals rfl

/-- A frame placed in a class queue touches the forwarding unit alone (R165). -/
theorem placeFrame_keeps (s : State) (c : FrameClass) (o : Owner) (k : FrameKind) (d : Byte) (x : Payload) :
    KeepsAllBut [.forward] s (placeFrame s c o k d x) := by
  refine ⟨fun b hb => ?_, rfl, rfl, rfl, rfl⟩
  cases b
  case forward => exact absurd (List.mem_singleton_self _) hb
  all_goals rfl

/-- An answer touches the console unit or the forwarding unit alone (R195). -/
theorem answerAs_keeps (s : State) (o : Owner) (r : Request) (st : Status) (data : AnswerData) (closing : Bool) :
    KeepsAllBut [.console, .forward] s (answerAs s o r st data closing) := by
  unfold answerAs
  split
  · exact (placeReply_keeps s _).mono (by simp)
  · exact (placeFrame_keeps s _ _ _ _ _).mono (by simp)

/-- An answer that is neither DENIED nor UNKNOWN is not counted by the agent (R194). -/
theorem countAgent_ofStatus (s : State) {st : Status} (hd : st ≠ .denied) (hu : st ≠ .unknown) :
    countAgent s (fun c => c.ofStatus st) = s := by
  have h : s.agent.counters.ofStatus st = s.agent.counters := by
    unfold AgentCounters.ofStatus
    split
    · exact absurd rfl hd
    · exact absurd rfl hu
    · rfl
  simp only [countAgent, h]
  rfl

/-- The state that the owning block is asked in: the clock `dt` later, and the head of the agent's queue taken (R194). -/
def headTaken (s : State) (dt : Nat) (rest : List Request) : State :=
  (s.elapse dt).setAgent { s.agent with queue := rest }

/-- Taking the head and replacing the axis unit touches the agent and the axis unit alone. -/
theorem headTaken_setAxis_keeps (s : State) (dt : Nat) (rest : List Request) (a : AxisUnit) :
    KeepsAllBut [.axis, .agent] s ((headTaken s dt rest).setAxis a) := by
  refine ⟨fun b hb => ?_, rfl, rfl, rfl, rfl⟩
  cases b
  case axis => exact absurd (by simp) hb
  case agent => exact absurd (by simp) hb
  all_goals rfl

/-- A request about one axis, at the end of its command: the axis unit `a` that its effect left differs from the one before in the
entry of the request alone, and the answer is neither DENIED nor UNKNOWN nor one that closes the agent (R194, R195). -/
theorem axisAnswered_settle (s u : State) (dt : Nat) (r : Request) (rest : List Request) (k : RequestKind) (st : Status)
    (a : AxisUnit) (e : AxisEntry) (hk : k ≠ .nodeReset) (hd : st ≠ .denied) (hu : st ≠ .unknown)
    (he : a.entries.get? r.entry = some e) (hothers : KeepsEntriesBut r.entry s.axis.entries a.entries)
    (hcount : a.counters = s.axis.counters) :
    AxisAnswered s (settle u (answerRequest r (some k)
      { status := st, data := noData, state := (headTaken s dt rest).setAxis a })) r rest st e := by
  have hanswer : answerRequest r (some k) { status := st, data := noData, state := (headTaken s dt rest).setAxis a }
      = answerAs ((headTaken s dt rest).setAxis a) (.answer false) r st noData false := by
    simp [answerRequest, countAgent_ofStatus _ hd hu, hk]
  rw [hanswer]
  have hanswered := answered_settle s ((headTaken s dt rest).setAxis a) u s.forward.management r st noData false
    rfl rfl rfl rfl Iff.rfl
  have hkeeps := answerAs_keeps ((headTaken s dt rest).setAxis a) (.answer false) r st noData false
  generalize answerAs ((headTaken s dt rest).setAxis a) (.answer false) r st noData false = y at hanswered hkeeps ⊢
  have hagent : TakenFromQueue s (settle u y) rest := (settle_agent u y).trans (hkeeps.1 .agent (by simp))
  have haxis : (settle u y).axis = a := (settle_axis u y).trans (hkeeps.1 .axis (by simp))
  refine ⟨hagent, hanswered, haxis ▸ he, haxis ▸ hothers, haxis ▸ hcount, ?_⟩
  have hhead := headTaken_setAxis_keeps s dt rest a
  exact ((hhead.mono (by simp)).trans (hkeeps.mono (by simp))).trans ((settle_keeps u y).mono (by simp))

/-- An AXIS request that is due, of an origin that may make it and about an axis of the table: the entry takes what `move` makes of
it where `move` answers OK, and stays where `move` refuses it (R35 to R39, R194). -/
theorem execute_actAxis (s u : State) (dt : Nat) (r : Request) (rest : List Request) (e : AxisEntry) (c : AxisCommand)
    (move : AxisEntry → Status × AxisEntry) (hdue : Due s r rest .axis) (hnames : Names r .axis) (hc : r.command = some c)
    (he : s.axis.entries.get? r.entry = some e) (hmove : (move e).1 = .ok ∨ (move e).1 = .state) :
    AxisAnswered s (settle u (execute (s.elapse dt) (fun r => r.commands c) .axis (actAxis move))) r rest (move e).1
      (if (move e).1 = .ok then (move e).2 else e) := by
  have hmine : r.commands c = true := by
    obtain ⟨-, -, hkind, -⟩ := hdue
    simp [Request.commands, Request.isKind, hkind, hc]
  have hexec : execute (s.elapse dt) (fun r => r.commands c) .axis (actAxis move)
      = answerRequest r (some .axis) (actAxis move (headTaken s dt rest) r) :=
    execute_due (s.elapse dt) _ .axis (actAxis move) r rest hdue hmine hnames
  have hentry : s.axis.entries.getD r.entry {} = e := by rw [Table.getD_eq_get?, he]; rfl
  have hact : actAxis move (headTaken s dt rest) r = checked (headTaken s dt rest) (move e).1
      ((headTaken s dt rest).setAxis { s.axis with entries := s.axis.entries.set r.entry (move e).2 }) := by
    unfold actAxis
    rw [hc, ← hentry]
    rfl
  rw [hexec, hact]
  obtain hok | href := hmove
  · rw [hok, if_pos rfl]
    exact axisAnswered_settle s u dt r rest .axis .ok _ (move e).2 (by decide) (by decide) (by decide)
      (Table.get?_set_same _ _ _ hnames.2) (fun j hj => Table.get?_set_other _ _ _ _ hj) rfl
  · rw [href, if_neg (by decide)]
    exact axisAnswered_settle s u dt r rest .axis .state s.axis e (by decide) (by decide) (by decide) he (fun _ _ => rfl) rfl

/-! ### STOP (R37) -/

/-- STOP answers OK or STATE. -/
theorem AxisEntry.stopRequest_status (e : AxisEntry) : e.stopRequest.1 = .ok ∨ e.stopRequest.1 = .state := by
  unfold AxisEntry.stopRequest
  cases e.state <;> simp

/-- The command of a STOP that is due: the entry takes what `stopRequest` makes of it. -/
theorem stop_answers (s : State) (dt : Nat) (r : Request) (rest : List Request) (e : AxisEntry) (hdue : Due s r rest .axis)
    (hnames : Names r .axis) (hc : r.command = some .stop) (he : s.axis.entries.get? r.entry = some e) :
    Completes (.stop dt) s fun t =>
      AxisAnswered s t r rest e.stopRequest.1 (if e.stopRequest.1 = .ok then e.stopRequest.2 else e) := fun hrel =>
  ⟨_, done_released s _ hrel,
    execute_actAxis s s dt r rest e .stop AxisEntry.stopRequest hdue hnames hc he e.stopRequest_status⟩

/-- Settles O13: the answer by `stop_answers` in each state of the axis, the v of FOLLOW by the equation of its computation, and
rest at v = 0 by `compute_stopping_at_rest`. -/
theorem stopRule : Obligations.StopRule := by
  refine ⟨fun s dt r rest e hdue hnames hc he hrel => ?_, fun e step => ⟨e.compute_v_of_follow step, rfl, ?_⟩⟩
  · obtain ⟨t, hrun, hans⟩ := stop_answers s dt r rest e hdue hnames hc he hrel
    refine ⟨t, hrun, ?_⟩
    cases hs : e.state <;> simpa [AxisEntry.stopRequest, hs] using hans
  · exact e.compute_stopping_at_rest step

/-! ### The offset slew (R29) -/

/-- Settles O17: the new offset is one bounded step from the old one toward the target. -/
theorem offsetSlewRule : Obligations.OffsetSlewRule := by
  intro e step hoff
  rw [e.compute_offset step hoff]
  exact ⟨e.compute_target step, approach_of_le, approach_of_lt, approach_step e.offset e.target e.slew⟩

end Sys2Proof.Machine

/-!
PROOFS. The family of chapter 4: the law of the latch (R71) and the trip reset (R75, R77), on what a forming of the view and an
evaluation do to the trip unit, said once each.
-/
namespace Sys2Proof.Machine

/-! ### The view formed anew (R86, R87) -/

/-- A forming of the view changes the view, the outputs and the group action counter of the trip unit, and nothing else of it. -/
theorem formView_trip (s : State) : ∃ outputs n, (formView s).trip =
    { s.trip with view := s.trip.formed, outputs := outputs, counters := { s.trip.counters with groupAction := n } } := by
  unfold formView
  dsimp only
  split
  · next h => exact ⟨s.trip.outputs, s.trip.counters.groupAction, by rw [h]; rfl⟩
  · exact ⟨_, _, rfl⟩

@[simp] theorem formView_own (s : State) : (formView s).trip.own = s.trip.own := by
  obtain ⟨_, _, h⟩ := formView_trip s
  rw [h]

/-- Beside the trip unit a forming of the view touches the axis unit and what tile 252 shows. -/
theorem formView_keeps (s : State) : KeepsAllBut [.axis, .trip] s (formView s) := by
  have hshow : ∀ x : State, (showTrips x).console.still = x.console.still := fun x =>
    writeSystem_still _ _ _ _ (by decide)
  unfold formView
  dsimp only
  split
  · refine ⟨fun b hb => ?_, rfl, rfl, rfl, rfl⟩
    cases b
    case console => exact hshow _
    all_goals rfl
  · refine ⟨fun b hb => ?_, rfl, rfl, rfl, rfl⟩
    cases b
    case console => exact hshow _
    case axis => exact absurd (by simp) hb
    case trip => exact absurd (by simp) hb
    all_goals rfl

/-! ### What leaves the trip unit as it is (R71)

The commands that evaluate no program leave the own-raised word: the lemmas `…_trip` say of an operation that the whole trip unit
stays, the lemmas `…_own` of one that changes the trip unit elsewhere that the word stays. -/

/-- An operation repeated over a list leaves the trip unit if it does so once. -/
theorem foldl_trip {α : Type} (f : State → α → State) (hf : ∀ s a, (f s a).trip = s.trip) (l : List α) (s : State) :
    (l.foldl f s).trip = s.trip := by
  induction l generalizing s with
  | nil => rfl
  | cons a rest ih => rw [List.foldl_cons, ih, hf]

section LeavesTheTripUnit
variable (s : State)

/-! #### Queues and records -/

@[simp] theorem placeReply_trip (r : Reply) : (placeReply s r).trip = s.trip := rfl
@[simp] theorem placeFrame_trip (c : FrameClass) (o : Owner) (k : FrameKind) (d : Byte) (x : Payload) :
    (placeFrame s c o k d x).trip = s.trip := rfl
@[simp] theorem placeRefusal_trip (o d : Byte) (code : BitVec 16) (x : RefuseReason) :
    (placeRefusal s o d code x).trip = s.trip := rfl
@[simp] theorem flushQueues_trip : (flushQueues s).trip = s.trip := rfl
@[simp] theorem countConsole_trip (f : ConsoleCounters → ConsoleCounters) : (countConsole s f).trip = s.trip := rfl
@[simp] theorem countForward_trip (f : ForwardCounters → ForwardCounters) : (countForward s f).trip = s.trip := rfl
@[simp] theorem countElection_trip (f : ElectionCounters → ElectionCounters) : (countElection s f).trip = s.trip := rfl
@[simp] theorem countAgent_trip (f : AgentCounters → AgentCounters) : (countAgent s f).trip = s.trip := rfl

@[simp] theorem forwardFrame_trip (p : PortId) (f : Frame) : (forwardFrame s p f).trip = s.trip := by
  unfold forwardFrame
  split
  · exact State.setPort_trip _ _ _
  · rfl

@[simp] theorem sendBoth_trip (f : Frame) : (sendBoth s f).trip = s.trip := by
  unfold sendBoth
  dsimp only
  split <;> split <;> simp

/-! #### The drive link (R49 to R57) -/

@[simp] theorem countMiss_trip (i : Nat) : (countMiss s i).trip = s.trip := by
  unfold countMiss
  dsimp only
  split <;> rfl

@[simp] theorem abandon_trip (p : Poll) : (abandon s p).trip = s.trip :=
  foldl_trip countMiss countMiss_trip _ s

@[simp] theorem beginPoll_trip (x : PendingPoll) : (beginPoll s x).trip = s.trip := by
  unfold beginPoll
  cases s.drive.poll <;> simp

@[simp] theorem continuePoll_trip (p : Poll) : (continuePoll s p).trip = s.trip := rfl

@[simp] theorem windowClosed_trip (p : Poll) : (windowClosed s p).trip = s.trip := by
  simp [windowClosed]

@[simp] theorem takeAnswer_trip (p : Poll) (a : ActualFields) : (takeAnswer s p a).trip = s.trip := by
  unfold takeAnswer
  dsimp only
  split <;> simp

@[simp] theorem actualReceived_trip (bytes : List Byte) : (actualReceived s bytes).trip = s.trip := by
  unfold actualReceived
  split
  · split
    · split
      · exact takeAnswer_trip s _ _
      · rfl
    · rfl
  · rfl

@[simp] theorem outputDue_trip : (outputDue s).trip = s.trip := by
  unfold outputDue
  split <;> simp

@[simp] theorem recordSent_trip : (recordSent s).trip = s.trip := by
  unfold recordSent
  repeat' split
  all_goals rfl

@[simp] theorem windowDue_trip : (windowDue s).trip = s.trip := by
  unfold windowDue
  repeat' split
  all_goals simp

/-! #### Images (chapters 6 to 8) -/

@[simp] theorem setCtx_trip (i : Nat) (c : StreamContext) : (setCtx s i c).trip = s.trip := rfl
@[simp] theorem triggerEvents_trip (x : ExtPos) (d : Int) : (triggerEvents s x d).trip = s.trip := rfl
@[simp] theorem countTimeout_trip (i : Nat) : (countTimeout s i).trip = s.trip := rfl
@[simp] theorem takeSegmentFrame_trip (f : Frame) : (takeSegmentFrame s f).trip = s.trip := rfl

@[simp] theorem sendCorrection_trip (r : MarkRecord) (c : Int) : (sendCorrection s r c).trip = s.trip := by
  unfold sendCorrection
  split <;> rfl

@[simp] theorem markLine_trip (i : Nat) (x : ExtPos) (l : List Nat) : (markLine s i x l).trip = s.trip := by
  unfold markLine
  dsimp only
  repeat' split
  all_goals simp

@[simp] theorem finishCapture_trip (i : Nat) (k : Capture) (a b : List (BitVec 16)) :
    (finishCapture s i k a b).trip = s.trip := by
  simp [finishCapture]

@[simp] theorem captureFalls_trip (i : Nat) (a b : List (BitVec 16)) : (captureFalls s i a b).trip = s.trip := by
  unfold captureFalls
  repeat' split
  all_goals simp

@[simp] theorem captureDue_trip (i : Nat) (a b : List (BitVec 16)) : (captureDue s i a b).trip = s.trip := by
  unfold captureDue
  split <;> simp

@[simp] theorem lineFalls_trip (i : Nat) : (lineFalls s i).trip = s.trip := by
  unfold lineFalls
  split <;> rfl

@[simp] theorem deliveryDue_trip : (deliveryDue s).trip = s.trip := by
  unfold deliveryDue
  split <;> rfl

@[simp] theorem pulseDue_trip (i : Nat) : (pulseDue s i).trip = s.trip := by
  unfold pulseDue
  dsimp only
  split <;> rfl

@[simp] theorem restartContext_trip (i : Nat) : (restartContext s i).trip = s.trip := by
  unfold restartContext
  split <;> rfl

@[simp] theorem restartAll_trip : (restartAll s).trip = s.trip :=
  foldl_trip restartContext restartContext_trip _ s

@[simp] theorem streamOff_trip (i : Nat) : (streamOff s i).trip = s.trip := by
  simp [streamOff]

@[simp] theorem writeStream_trip (i : Nat) (w : StreamWrite) : (writeStream s i w).trip = s.trip := by
  unfold writeStream
  dsimp only
  repeat' split
  all_goals simp

/-! #### The election (chapter 11) -/

@[simp] theorem placeClaim_trip (n : Nat) : (placeClaim s n).trip = s.trip := rfl

@[simp] theorem claimStep_trip : (claimStep s).trip = s.trip := by
  unfold claimStep
  split <;> rfl

@[simp] theorem listenExpired_trip : (listenExpired s).trip = s.trip := claimStep_trip _

@[simp] theorem electionLost_trip : (electionLost s).trip = s.trip := by
  unfold electionLost
  split
  · exact claimStep_trip _
  · rfl

@[simp] theorem forwardClaim_trip (p : PortId) (f : Frame) : (forwardClaim s p f).trip = s.trip :=
  forwardFrame_trip _ _ _

@[simp] theorem dropClaim_trip : (dropClaim s).trip = s.trip := rfl
@[simp] theorem yieldMaster_trip : (yieldMaster s).trip = s.trip := rfl
@[simp] theorem winElection_trip (x : Byte) : (winElection s x).trip = s.trip := rfl

@[simp] theorem takeClaim_trip (p : PortId) (f : Frame) : (takeClaim s p f).trip = s.trip := by
  unfold takeClaim
  dsimp only
  repeat' split
  all_goals simp

@[simp] theorem ownClaimReturned_trip (f : Frame) : (ownClaimReturned s f).trip = s.trip := by
  unfold ownClaimReturned
  dsimp only
  split <;> simp

@[simp] theorem foreignCopy_trip : (foreignCopy s).trip = s.trip := by
  unfold foreignCopy
  split <;> rfl

@[simp] theorem electionRestart_trip : (electionRestart s).trip = s.trip := by
  unfold electionRestart
  dsimp only
  split
  · rfl
  · split <;> rfl

@[simp] theorem writePriority_trip (n : Nat) : (writePriority s n).trip = s.trip := rfl

@[simp] theorem listenDue_trip : (listenDue s).trip = s.trip := by
  unfold listenDue
  repeat' split
  all_goals simp

@[simp] theorem claimDue_trip : (claimDue s).trip = s.trip := by
  unfold claimDue
  repeat' split
  all_goals simp

/-! #### The console (chapter 9) -/

@[simp] theorem appendRecord_trip (r : InRecord) : (appendRecord s r).trip = s.trip := by
  unfold appendRecord
  split <;> rfl

@[simp] theorem recordIn_trip (n : Nat) (bytes : List Byte) : (recordIn s n bytes).trip = s.trip := by
  unfold recordIn
  repeat' split
  all_goals simp

@[simp] theorem takeEvent_trip (loc : Bool) (o : Byte) (code : BitVec 16) (data : List Byte) :
    (takeEvent s loc o code data).trip = s.trip := by
  unfold takeEvent
  dsimp only
  repeat' split
  all_goals simp

@[simp] theorem takeEventFrame_trip (f : Frame) : (takeEventFrame s f).trip = s.trip := by
  unfold takeEventFrame
  split <;> simp

@[simp] theorem eventReturned_trip (f : Frame) : (eventReturned s f).trip = s.trip := rfl

@[simp] theorem takeRefusalFrame_trip (f : Frame) : (takeRefusalFrame s f).trip = s.trip := by
  unfold takeRefusalFrame
  split <;> rfl

@[simp] theorem takeAnswerFrame_trip (f : Frame) : (takeAnswerFrame s f).trip = s.trip := rfl
@[simp] theorem updateTile_trip (n w : Nat) (v : BitVec 16) (x : List Byte) : (updateTile s n w v x).trip = s.trip := rfl
@[simp] theorem takeTileFrame_trip (f : Frame) : (takeTileFrame s f).trip = s.trip := rfl
@[simp] theorem unroutable_trip : (unroutable s).trip = s.trip := rfl

@[simp] theorem answerAs_trip (o : Owner) (r : Request) (st : Status) (data : AnswerData) (c : Bool) :
    (answerAs s o r st data c).trip = s.trip := by
  unfold answerAs
  split <;> rfl

@[simp] theorem takeRequest_trip (r : Request) : (takeRequest s r).trip = s.trip := by
  unfold takeRequest
  split <;> simp

@[simp] theorem takeRequestFrame_trip (f : Frame) : (takeRequestFrame s f).trip = s.trip := by
  unfold takeRequestFrame
  split <;> simp

@[simp] theorem requestReturned_trip (f : Frame) : (requestReturned s f).trip = s.trip := rfl

@[simp] theorem routeTile_trip (d n : Byte) (v : BitVec 16) (x : List Byte) : (routeTile s d n v x).trip = s.trip := by
  unfold routeTile
  dsimp only
  repeat' split
  all_goals simp

@[simp] theorem routeEvent_trip (d : Byte) (code : BitVec 16) (x : List Byte) : (routeEvent s d code x).trip = s.trip := by
  unfold routeEvent
  dsimp only
  repeat' split
  all_goals simp

@[simp] theorem routeRequest_trip (g : BitVec 16) (d k i n : Byte) (x : List Byte) :
    (routeRequest s g d k i n x).trip = s.trip := by
  unfold routeRequest
  dsimp only
  repeat' split
  all_goals simp

@[simp] theorem routeRecord_trip (r : InRecord) : (routeRecord s r).trip = s.trip := by
  cases r
  case tile => exact routeTile_trip s _ _ _ _
  case event => exact routeEvent_trip s _ _ _
  case request => exact routeRequest_trip s _ _ _ _ _ _

@[simp] theorem routeHead_trip : (routeHead s).trip = s.trip := by
  unfold routeHead
  repeat' split
  all_goals simp

@[simp] theorem closingSent_trip : (closingSent s).trip = s.trip := rfl

@[simp] theorem sendEnded_trip : (sendEnded s).trip = s.trip := by
  unfold sendEnded
  dsimp only
  repeat' split
  all_goals rfl

/-! #### The fibre ports (chapter 12) -/

@[simp] theorem formRing_trip : (formRing s).trip = s.trip := rfl
@[simp] theorem setLink_trip (p : PortId) (l : Link) : (setLink s p l).trip = s.trip := State.setPort_trip _ _ _
@[simp] theorem takeDown_trip (p : PortId) (l : Link) : (takeDown s p l).trip = s.trip := State.setPort_trip _ _ _
@[simp] theorem watchdogExpired_trip (p : PortId) : (watchdogExpired s p).trip = s.trip := setLink_trip _ _ _
@[simp] theorem retryExpired_trip (p : PortId) : (retryExpired s p).trip = s.trip := setLink_trip _ _ _
@[simp] theorem leaveUp_trip (p : PortId) (f : PortCounters → PortCounters) : (leaveUp s p f).trip = s.trip :=
  takeDown_trip _ _ _

@[simp] theorem lockGained_trip (p : PortId) : (lockGained s p).trip = s.trip := by
  unfold lockGained
  dsimp only
  split <;> simp

@[simp] theorem identityIn_trip (p : PortId) (bytes : List Byte) : (identityIn s p bytes).trip = s.trip := by
  unfold identityIn
  dsimp only
  split <;> simp

@[simp] theorem lockLost_trip (p : PortId) : (lockLost s p).trip = s.trip := by
  unfold lockLost
  dsimp only
  repeat' split
  all_goals simp

@[simp] theorem countReceived_trip (p : PortId) (bad : Bool) : (countReceived s p bad).trip = s.trip := by
  unfold countReceived
  dsimp only
  split <;> simp

@[simp] theorem writeEnable_trip (p : PortId) (on : Bool) : (writeEnable s p on).trip = s.trip := by
  unfold writeEnable
  dsimp only
  repeat' split
  all_goals simp

@[simp] theorem retrainPort_trip (p : PortId) : (retrainPort s p).state.trip = s.trip := by
  unfold retrainPort
  dsimp only
  split
  · rfl
  · exact takeDown_trip s _ _

@[simp] theorem frameEnded_trip (p : PortId) : (frameEnded s p).trip = s.trip := by
  unfold frameEnded
  dsimp only
  repeat' split
  all_goals simp

@[simp] theorem watchdogDue_trip (p : PortId) : (watchdogDue s p).trip = s.trip := by
  unfold watchdogDue
  repeat' split
  all_goals simp

@[simp] theorem retryDue_trip (p : PortId) : (retryDue s p).trip = s.trip := by
  unfold retryDue
  repeat' split
  all_goals simp

/-! #### Frames that arrive and cycle events -/

@[simp] theorem hopExpired_trip (f : Frame) : (hopExpired s f).trip = s.trip := by
  unfold hopExpired
  dsimp only
  split <;> rfl

@[simp] theorem captureSlot_trip (n : BitVec 16) : (captureSlot s n).trip = s.trip := rfl
@[simp] theorem countStale_trip : (countStale s).trip = s.trip := rfl
@[simp] theorem takeCorrectionFrame_trip (f : Frame) : (takeCorrectionFrame s f).trip = s.trip := rfl

@[simp] theorem sendOn_trip (p : PortId) (f : Frame) : (sendOn s p f).trip = s.trip := by
  unfold sendOn forwardCycle
  split <;> simp

@[simp] theorem copyReturned_trip (f : Frame) : (copyReturned s f).trip = s.trip := by
  unfold copyReturned
  dsimp only
  repeat' split
  all_goals rfl

@[simp] theorem strip_trip (f : Frame) : (strip s f).trip = s.trip := by
  unfold strip
  repeat' split
  all_goals simp

@[simp] theorem ownFrameBack_trip (p : PortId) (f : Frame) : (ownFrameBack s p f).trip = s.trip := by
  unfold ownFrameBack
  split <;> simp

end LeavesTheTripUnit

/-! ### What leaves the own-raised word as it is (R71) -/

section LeavesTheWord
variable (s : State)

theorem TripUnit.acceptFrame_own (u : TripUnit) (n : Nat) (x : Byte) (w : Marks) : (u.acceptFrame n x w).own = u.own := by
  unfold TripUnit.acceptFrame TripUnit.accepted
  repeat' split
  all_goals rfl

theorem TripUnit.cycleEvent_own (u : TripUnit) (received : Option (Marks × Marks)) : (u.cycleEvent received).own = u.own := by
  cases received <;> rfl

theorem TripUnit.pinLevel_own (u : TripUnit) (i : Nat) (high : Bool) (now : Time) : (u.pinLevel i high now).own = u.own := by
  unfold TripUnit.pinLevel
  dsimp only
  repeat' split
  all_goals rfl

@[simp] theorem tripCycleEvent_own (received : Option (Marks × Marks)) : (tripCycleEvent s received).trip.own = s.trip.own := by
  rw [tripCycleEvent, formView_own]
  exact TripUnit.cycleEvent_own _ _

@[simp] theorem tripLateCopy_own (a b : Marks) : (tripLateCopy s a b).trip.own = s.trip.own := formView_own _

@[simp] theorem takeTripFrame_own (f : Frame) : (takeTripFrame s f).trip.own = s.trip.own := by
  rw [takeTripFrame, formView_own]
  exact TripUnit.acceptFrame_own _ _ _ _

@[simp] theorem tripRestart_own : (tripRestart s).trip.own = s.trip.own := formView_own _

@[simp] theorem writeAction_own (i : Nat) (w : ActionWrite) : (writeAction s i w).trip.own = s.trip.own := rfl

@[simp] theorem holdDue_own (i : Nat) : (holdDue s i).trip.own = s.trip.own := by
  unfold holdDue
  split <;> rfl

@[simp] theorem cycleEvent_own (x : ExtPos) (due : Int) (received : Option (Marks × Marks)) :
    (cycleEvent s x due received).trip.own = s.trip.own := by
  simp [cycleEvent]

@[simp] theorem takeCopy_own (p : PortId) (o : Byte) (c : CycleCopy) : (takeCopy s p o c).trip.own = s.trip.own := by
  unfold takeCopy
  repeat' split
  all_goals simp [startSync, takeFirst, takeLate]

@[simp] theorem takeCycleFrame_own (p : PortId) (f : Frame) : (takeCycleFrame s p f).trip.own = s.trip.own := by
  unfold takeCycleFrame
  dsimp only
  split <;> simp

@[simp] theorem substituteCycle_own : (substituteCycle s).trip.own = s.trip.own := by
  unfold substituteCycle
  dsimp only
  split <;> simp

@[simp] theorem substituteNow_own : (substituteNow s).trip.own = s.trip.own := by
  unfold substituteNow
  split <;> simp

@[simp] theorem masterEvent_own : (masterEvent s).trip.own = s.trip.own := by
  simp [masterEvent]

@[simp] theorem masterNow_own : (masterNow s).trip.own = s.trip.own := by
  unfold masterNow
  split <;> simp

@[simp] theorem consume_own (p : PortId) (f : Frame) : (consume s p f).trip.own = s.trip.own := by
  unfold consume
  cases f.kind <;> simp

@[simp] theorem foreignFrame_own (p : PortId) (f : Frame) : (foreignFrame s p f).trip.own = s.trip.own := by
  unfold foreignFrame
  repeat' split
  all_goals simp

@[simp] theorem passFrame_own (p : PortId) (f : Frame) : (passFrame s p f).trip.own = s.trip.own := by
  unfold passFrame
  dsimp only
  split <;> simp

@[simp] theorem handleFrame_own (p : PortId) (f : Frame) : (handleFrame s p f).trip.own = s.trip.own := by
  unfold handleFrame
  repeat' split
  all_goals simp

@[simp] theorem frameArrived_own (p : PortId) (bytes : List Byte) : (frameArrived s p bytes).trip.own = s.trip.own := by
  unfold frameArrived
  repeat' split
  all_goals simp

@[simp] theorem ringRestart_own : (ringRestart s).trip.own = s.trip.own := by
  simp [ringRestart]

@[simp] theorem clearCounters_own (i : Nat) : (clearCounters s i).trip.own = s.trip.own := by
  unfold clearCounters
  split <;> simp

end LeavesTheWord

/-! ### An evaluation (R66, R71 to R74) -/

/-- What an evaluation makes of the trip unit, field by field: the targets of true rules join the own-raised word, and where that
gained channels at a node with an address the trip sequence and the trip frame counter go up (R71, R72). -/
theorem TripUnit.evaluated_eq (u : TripUnit) (addressed : Bool) : u.evaluated addressed =
    { u with
      own := u.own ||| u.active.raised u.sources
      seq := if u.own ||| u.active.raised u.sources ≠ u.own ∧ addressed = true then u.seq + 1 else u.seq
      counters := { u.counters with tripFrame :=
        if u.own ||| u.active.raised u.sources ≠ u.own ∧ addressed = true then bump u.counters.tripFrame
        else u.counters.tripFrame } } := by
  unfold TripUnit.evaluated
  dsimp only
  by_cases h : u.own ||| u.active.raised u.sources = u.own
  · simp [h]
  · cases addressed <;> simp [h]

theorem TripUnit.evaluated_own (u : TripUnit) (addressed : Bool) :
    (u.evaluated addressed).own = u.own ||| u.active.raised u.sources := by
  rw [u.evaluated_eq]

/-- An evaluation in its parts: the trip unit evaluated, the trip frame of gained channels at a node with an address, the view
formed (R66, R72, R74). -/
theorem evaluate_eq (s : State) : evaluate s = formView
    (if (s.trip.evaluated s.hasAddress).own ≠ s.trip.own ∧ s.hasAddress = true then
      sendBoth (s.setTrip (s.trip.evaluated s.hasAddress)) (Frame.own s.addressByte .trip 0
        (.bytes (tripPayload (s.trip.evaluated s.hasAddress).seq (s.trip.evaluated s.hasAddress).own)))
    else s.setTrip (s.trip.evaluated s.hasAddress)) := by
  unfold evaluate
  simp only [State.setTrip_trip, bne_iff_ne, Bool.and_eq_true]

/-- An evaluation leaves the trip unit evaluated and its view formed (R66, R74). -/
theorem evaluate_trip (s : State) : ∃ outputs n, (evaluate s).trip =
    { s.trip.evaluated s.hasAddress with
      view := (s.trip.evaluated s.hasAddress).formed
      outputs := outputs
      counters := { (s.trip.evaluated s.hasAddress).counters with groupAction := n } } := by
  rw [evaluate_eq]
  have hform (x : State) (hx : x.trip = s.trip.evaluated s.hasAddress) := hx ▸ formView_trip x
  split
  · exact hform _ (sendBoth_trip _ _)
  · exact hform _ rfl

/-- An evaluation leaves the active program and the sources, and the targets of true rules have joined the own-raised word (R71). -/
theorem evaluate_raises (s : State) : (evaluate s).trip.active = s.trip.active ∧ (evaluate s).trip.sources = s.trip.sources ∧
    (evaluate s).trip.own = s.trip.own ||| s.trip.active.raised s.trip.sources := by
  obtain ⟨o, n, h⟩ := evaluate_trip s
  rw [TripUnit.evaluated_eq] at h
  rw [h]
  exact ⟨rfl, rfl, rfl⟩

/-! ### The commands, each with what it leaves of the own-raised word (R71) -/

/-- An execution leaves the own-raised word if the owning block's effect does: its checks and its answer leave it (R194). -/
theorem execute_own (s : State) (mine : Request → Bool) (k : RequestKind) (act : State → Request → Executed)
    (hact : ∀ x r, (act x r).state.trip.own = x.trip.own) : (execute s mine k act).trip.own = s.trip.own := by
  obtain h | ⟨r, rest, -, -, -, ⟨-, h⟩ | ⟨-, h⟩⟩ := execute_cases s mine k act
  · rw [h]
  · rw [h, answerRequest, answerAs_trip, countAgent_trip, hact, State.setAgent_trip]
  · rw [h, answerRequest, answerAs_trip, countAgent_trip]
    rfl

theorem executeUnknown_own (s : State) : (executeUnknown s).trip.own = s.trip.own := by
  unfold executeUnknown takeHead
  cases s.agent.queue with
  | nil => rfl
  | cons r rest =>
    dsimp only
    by_cases h : (agentFree s && r.kindOf.isNone) = true
    · rw [if_pos h]
      simp [answerRequest, refuse]
    · rw [if_neg h]

/-- An effect behind the checks of its block leaves the own-raised word if the effect itself does. -/
theorem checked_own (s u : State) (st : Status) (h : u.trip.own = s.trip.own) : (checked s st u).state.trip.own = s.trip.own := by
  unfold checked
  split
  · exact h
  · rfl

/-- A WRITE leaves the own-raised word if it does so with every content of its fields. -/
theorem writeFields_own {α : Type} (fields : Option α) (act : α → State → Request → Executed)
    (hact : ∀ w x r, (act w x r).state.trip.own = x.trip.own) (x : State) (r : Request) :
    (writeFields fields act x r).state.trip.own = x.trip.own := by
  cases fields with
  | none => rfl
  | some w => exact hact w x r

section Effects
variable (s : State) (r : Request)

theorem actRead_own : (actRead s r).state.trip.own = s.trip.own := by
  unfold actRead
  split <;> rfl

theorem actReadClear_own : (actReadClear s r).state.trip.own = s.trip.own := clearCounters_own s _

theorem actPlainWrite_own (fields : Option PlainWrite) : (actPlainWrite fields s r).state.trip.own = s.trip.own := by
  unfold actPlainWrite
  split
  · rfl
  · refine writeFields_own fields _ (fun w x r => ?_) s r
    split
    · exact checked_own _ _ _ rfl
    · exact checked_own _ _ _ rfl
    · rfl

theorem actNodeWrite_own (w : NodeWrite) : (actNodeWrite w s r).state.trip.own = s.trip.own := by
  refine checked_own _ _ _ ?_
  unfold applyNodeWrite
  dsimp only
  cases w.priority <;> rfl

theorem actAxisWrite_own (w : AxisWrite) : (actAxisWrite w s r).state.trip.own = s.trip.own := checked_own _ _ _ rfl

theorem actActionWrite_own (w : ActionWrite) : (actActionWrite w s r).state.trip.own = s.trip.own :=
  checked_own _ _ _ (writeAction_own s _ w)

theorem actStreamWrite_own (w : StreamWrite) : (actStreamWrite w s r).state.trip.own = s.trip.own :=
  checked_own _ _ _ (by rw [writeStream_trip])

theorem actMarkWrite_own (w : MarkWrite) : (actMarkWrite w s r).state.trip.own = s.trip.own := checked_own _ _ _ rfl

theorem actTileWrite_own (w : TileWrite) : (actTileWrite w s r).state.trip.own = s.trip.own := checked_own _ _ _ rfl

theorem actPortWrite_own (w : PortWrite) : (actPortWrite w s r).state.trip.own = s.trip.own := by
  refine checked_own _ _ _ ?_
  split <;> simp

theorem actAxis_own (move : AxisEntry → Status × AxisEntry) : (actAxis move s r).state.trip.own = s.trip.own := by
  unfold actAxis
  split
  · rfl
  · exact checked_own _ _ _ rfl

theorem actSetSpeed_own : (actSetSpeed s r).state.trip.own = s.trip.own := by
  unfold actSetSpeed
  dsimp only
  repeat' split
  all_goals rfl

end Effects

/-- The commands that can change the own-raised word: what evaluates the active program, and the resets of the part. -/
def mayChangeOwn : Instr → Bool
  | .tripEvaluation _ _ => true
  | .tripCommit _ => true
  | .tripReset _ => true
  | .powerOnReset _ _ => true
  | .nodeResetBegin _ => true
  | _ => false

/-- With RESET not held, a command of the outside ends with the own-raised word that its effect left. -/
theorem own_of_done {s u t : State} (hrel : s.resetHeld = false) (hrun : done s u = .next t) : t.trip.own = u.trip.own := by
  rw [done_released s u hrel] at hrun
  cases hrun
  exact settle_trip_own s u

/-- With RESET not held, a command of the part's timers ends with the own-raised word that its effect left. -/
theorem own_of_timed {s u t : State} (hrel : s.resetHeld = false) (hrun : timed s u = .next t) : t.trip.own = u.trip.own := by
  rw [timed_released s u hrel] at hrun
  cases hrun
  exact settle_trip_own s u

/-- Of the commands that execute a request, those whose effect leaves the own-raised word leave it. -/
theorem own_of_execute {s t : State} {dt : Nat} {mine : Request → Bool} {k : RequestKind} {act : State → Request → Executed}
    (hrel : s.resetHeld = false) (hrun : done s (execute (s.elapse dt) mine k act) = .next t)
    (hact : ∀ x r, (act x r).state.trip.own = x.trip.own) : t.trip.own = s.trip.own :=
  (own_of_done hrel hrun).trans (execute_own _ _ _ _ hact)

/-- Every command that neither evaluates the active program nor resets the part leaves the own-raised word (R71). -/
theorem exec_own {c : Instr} {s t : State} (hrel : s.resetHeld = false) (hrun : exec c s = .next t)
    (hc : mayChangeOwn c = false) : t.trip.own = s.trip.own := by
  cases c with
  | powerOnReset | nodeResetBegin | tripEvaluation | tripReset | tripCommit => exact nomatch hc
  | frameArrival => exact (own_of_done hrel hrun).trans (frameArrived_own _ _ _)
  | substituteCycle => exact (own_of_timed hrel hrun).trans (substituteNow_own s)
  | masterCycleEvent => exact (own_of_timed hrel hrun).trans (masterNow_own s)
  | outputInstant => exact (own_of_timed hrel hrun).trans (by rw [outputDue_trip])
  | setpointRecordSent => exact (own_of_timed hrel hrun).trans (by rw [recordSent_trip])
  | answerWindowClose => exact (own_of_timed hrel hrun).trans (by rw [windowDue_trip])
  | actualRecord => exact (own_of_done hrel hrun).trans (by simp)
  | tripInputChange => exact (own_of_done hrel hrun).trans (TripUnit.pinLevel_own _ _ _ _)
  | tripInputHoldExpiry => exact (own_of_timed hrel hrun).trans (holdDue_own s _)
  | triggerPulse => exact (own_of_timed hrel hrun).trans (by rw [pulseDue_trip])
  | captureTimeout => exact (own_of_timed hrel hrun).trans (by rw [captureDue_trip])
  | portFrameEnd => exact (own_of_timed hrel hrun).trans (by rw [frameEnded_trip])
  | listenTimerExpiry => exact (own_of_timed hrel hrun).trans (by rw [listenDue_trip])
  | claimTimerExpiry => exact (own_of_timed hrel hrun).trans (by rw [claimDue_trip])
  | lockWatchdogExpiry => exact (own_of_timed hrel hrun).trans (by rw [watchdogDue_trip])
  | retryTimerExpiry => exact (own_of_timed hrel hrun).trans (by rw [retryDue_trip])
  | lineValidRise | consoleSendStart | consoleHoldChange => exact (own_of_done hrel hrun).trans rfl
  | lineValidFall => exact (own_of_done hrel hrun).trans (by simp)
  | captureComplete => exact (own_of_done hrel hrun).trans (by simp)
  | deliveryEnd => exact (own_of_done hrel hrun).trans (by simp)
  | consoleRecordIn => exact (own_of_done hrel hrun).trans (by simp)
  | recordRouting => exact (own_of_done hrel hrun).trans (by simp)
  | consoleSendEnd => exact (own_of_done hrel hrun).trans (by simp)
  | wordLockGained => exact (own_of_done hrel hrun).trans (by simp)
  | identityRecordIn => exact (own_of_done hrel hrun).trans (by simp)
  | lockLost => exact (own_of_done hrel hrun).trans (by simp)
  | unknownRequestKind => exact (own_of_done hrel hrun).trans (executeUnknown_own _)
  | read => exact own_of_execute hrel hrun actRead_own
  | readClear => exact own_of_execute hrel hrun actReadClear_own
  | write _ fields => exact own_of_execute hrel hrun fun x r => actPlainWrite_own x r fields
  | nodeSettingsWrite | masterJumpClear | imagePortSettingWrite | allowanceSettingWrite | priorityWrite | writePermitMaskWrite =>
    exact own_of_execute hrel hrun (writeFields_own _ _ fun w x r => actNodeWrite_own x r w)
  | axisWrite | offsetWrite | cmaxWrite | axisFlagClear | axisMaskWrite =>
    exact own_of_execute hrel hrun (writeFields_own _ _ fun w x r => actAxisWrite_own x r w)
  | actionWrite => exact own_of_execute hrel hrun (writeFields_own _ _ fun w x r => actActionWrite_own x r w)
  | streamWrite | streamModeOn | streamModeOff =>
    exact own_of_execute hrel hrun (writeFields_own _ _ fun w x r => actStreamWrite_own x r w)
  | markWrite => exact own_of_execute hrel hrun (writeFields_own _ _ fun w x r => actMarkWrite_own x r w)
  | tileWrite => exact own_of_execute hrel hrun (writeFields_own _ _ fun w x r => actTileWrite_own x r w)
  | portEnableWrite => exact own_of_execute hrel hrun (writeFields_own _ _ fun w x r => actPortWrite_own x r w)
  | enable | engage | stop | disable | release => exact own_of_execute hrel hrun fun x r => actAxis_own x r _
  | setSpeed => exact own_of_execute hrel hrun actSetSpeed_own
  | streamRestart => exact own_of_execute hrel hrun fun x r => by rw [accept, restartContext_trip]
  | retrain => exact own_of_execute hrel hrun fun x r => by rw [retrainPort_trip]
  | ringRestart => exact own_of_execute hrel hrun fun x _ => by simp [accept]
  | nodeReset => exact own_of_execute hrel hrun fun _ _ => rfl

/-! ### The commands that can change the own-raised word (R66, R70, R71, R75) -/

/-- The evaluation law, of a command that takes no channel out of the word: it stays, or the true rules of the program that is active
afterwards have joined it. -/
def RaisedOnly (s t : State) : Prop :=
  t.trip.own = s.trip.own ∨ t.trip.own = s.trip.own ||| t.trip.active.raised t.trip.sources

theorem RaisedOnly.settle {s u : State} (v : State) (h : RaisedOnly s u) : RaisedOnly s (settle v u) := by
  unfold RaisedOnly
  rw [settle_trip_own, settle_trip_active, settle_trip_sources]
  exact h

theorem RaisedOnly.evaluate {s u : State} (h : u.trip.own = s.trip.own) : RaisedOnly s (evaluate u) := by
  obtain ⟨hactive, hsources, hown⟩ := evaluate_raises u
  refine .inr ?_
  rw [hactive, hsources, hown, h]

/-- The change that is taken is evaluated; with none taken nothing happens (R67). -/
theorem takeChange_raisedOnly (s : State) (pick : Nat) : RaisedOnly s (takeChange s pick) := by
  unfold takeChange
  dsimp only
  split
  · exact .evaluate rfl
  · exact .inl rfl

/-- A refused commit changes a counter; an accepted one evaluates the program that it makes active (R70). -/
theorem actTripCommit_raisedOnly (s : State) (r : Request) : RaisedOnly s (actTripCommit s r).state := by
  unfold actTripCommit tripCommit
  cases s.trip.staging.refusedAt with
  | some i => exact .inl rfl
  | none => exact .evaluate rfl

/-- All that a trip reset does to the own-raised word (R75): it stays, or the head of the queue was a TRIP RESET, the marked channels
left the word, and the true rules of the active program joined it. -/
def ResetThenRaised (s t : State) : Prop :=
  t.trip.own = s.trip.own ∨ ∃ r rest, s.agent.queue = r :: rest ∧ r.kindOf = some .tripReset ∧
    t.trip.own = s.trip.own &&& ~~~r.channelMask ||| t.trip.active.raised t.trip.sources

/-- A trip reset takes the marked channels out of the word and evaluates once (R75). -/
theorem tripReset_raises (s : State) (mask : Marks) : (tripReset s mask).trip.own =
    s.trip.own &&& ~~~mask ||| (tripReset s mask).trip.active.raised (tripReset s mask).trip.sources := by
  obtain ⟨hactive, hsources, hown⟩ := evaluate_raises (resetView s mask)
  have hview : (resetView s mask).trip.own = s.trip.own &&& ~~~mask := formView_own _
  rw [tripReset, hactive, hsources, hown, hview]

theorem actTripReset_state (s : State) (r : Request) :
    (actTripReset s r).state = s ∨ (actTripReset s r).state = tripReset s r.channelMask := by
  unfold actTripReset
  dsimp only
  split
  · exact .inl rfl
  · split
    · exact .inr rfl
    · exact .inr rfl

theorem execTripCommit_raisedOnly {s t : State} {dt : Nat} (hrel : s.resetHeld = false) (hrun : execTripCommit dt s = .next t) :
    RaisedOnly s t := by
  rw [execTripCommit, done_released _ _ hrel] at hrun
  cases hrun
  refine RaisedOnly.settle s ?_
  obtain h | ⟨r, rest, -, -, -, ⟨-, h⟩ | ⟨-, h⟩⟩ :=
    execute_cases (s.elapse dt) (fun r => r.isKind .tripCommit) .tripCommit actTripCommit
  · exact .inl (by rw [h]; rfl)
  · unfold RaisedOnly
    rw [h, answerRequest, answerAs_trip, countAgent_trip]
    exact actTripCommit_raisedOnly _ r
  · refine .inl ?_
    rw [h, answerRequest, answerAs_trip, countAgent_trip]
    rfl

theorem execTripReset_resetThenRaised {s t : State} {dt : Nat} (hrel : s.resetHeld = false)
    (hrun : execTripReset dt s = .next t) : ResetThenRaised s t := by
  rw [execTripReset, done_released _ _ hrel] at hrun
  cases hrun
  unfold ResetThenRaised
  rw [settle_trip_own, settle_trip_active, settle_trip_sources]
  obtain h | ⟨r, rest, hqueue, -, hmine, ⟨-, h⟩ | ⟨-, h⟩⟩ :=
    execute_cases (s.elapse dt) (fun r => r.isKind .tripReset) .tripReset actTripReset
  · exact .inl (by rw [h]; rfl)
  · rw [h, answerRequest, answerAs_trip, countAgent_trip]
    obtain hstate | hstate := actTripReset_state ((s.elapse dt).setAgent { (s.elapse dt).agent with queue := rest }) r
    · exact .inl (by rw [hstate]; rfl)
    · refine .inr ⟨r, rest, hqueue, by simpa [Request.isKind] using hmine, ?_⟩
      rw [hstate]
      exact tripReset_raises _ _
  · refine .inl ?_
    rw [h, answerRequest, answerAs_trip, countAgent_trip]
    rfl

/-! ### The law of the latch (R71) -/

/-- A reset of the part empties the own-raised word: RESET going low and the reset ending do (R90, R192). -/
theorem execPowerOnReset_own {s t : State} {dt : Nat} {straps : Option (BitVec 6)}
    (hrun : execPowerOnReset dt straps s = .next t) : t.trip.own = 0 := by
  cases straps <;> cases hrun <;> rfl

/-- NODE_RESET_BEGIN with RESET not held: where an executed NODE RESET waits the word is empty, else nothing happens (R198). -/
theorem execNodeResetBegin_own {s t : State} {straps : BitVec 6} (hrel : s.resetHeld = false)
    (hrun : execNodeResetBegin straps s = .next t) :
    (s.agent.resetWait ≠ none → t.trip.own = 0) ∧ (s.agent.resetWait = none → t = s) := by
  rw [execNodeResetBegin, hrel] at hrun
  cases hrun
  unfold nodeReset
  cases h : s.agent.resetWait with
  | none => exact ⟨fun hne => absurd rfl hne, fun _ => rfl⟩
  | some w => exact ⟨fun _ => rfl, fun hnone => nomatch hnone⟩

/-- What enters the word through a command, and what leaves it. -/
def LatchMoved (c : Instr) (s t : State) (ch : Nat) : Prop :=
  (s.trip.own.getLsbD ch = false → t.trip.own.getLsbD ch = true →
    (t.trip.active.raised t.trip.sources).getLsbD ch = true ∧
    ((∃ dt pick, c = .tripEvaluation dt pick) ∨ (∃ dt, c = .tripCommit dt) ∨ ∃ dt, c = .tripReset dt)) ∧
  (s.trip.own.getLsbD ch = true → t.trip.own.getLsbD ch = false →
    (∃ dt r rest, c = .tripReset dt ∧ s.agent.queue = r :: rest ∧ r.kindOf = some .tripReset ∧
      r.channelMask.getLsbD ch = true ∧ (t.trip.active.raised t.trip.sources).getLsbD ch = false) ∨
    (∃ dt straps, c = .powerOnReset dt straps) ∨ ∃ straps, c = .nodeResetBegin straps)

theorem LatchMoved.of_own_eq {c : Instr} {s t : State} {ch : Nat} (h : t.trip.own = s.trip.own) : LatchMoved c s t ch := by
  unfold LatchMoved
  rw [h]
  exact ⟨fun hout hin => absurd (hin.symm.trans hout) (by decide), fun hin hout => absurd (hin.symm.trans hout) (by decide)⟩

/-- Through an evaluation or a commit no channel leaves the word, and one that enters it is the target of a true rule. -/
theorem LatchMoved.of_raisedOnly {c : Instr} {s t : State} {ch : Nat} (h : RaisedOnly s t)
    (hc : (∃ dt pick, c = .tripEvaluation dt pick) ∨ (∃ dt, c = .tripCommit dt) ∨ ∃ dt, c = .tripReset dt) :
    LatchMoved c s t ch := by
  obtain h | h := h
  · exact .of_own_eq h
  · unfold LatchMoved
    rw [h, BitVec.getLsbD_or]
    refine ⟨fun hout hin => ⟨?_, hc⟩, fun hin hout => ?_⟩
    · simpa [hout] using hin
    · simp [hin] at hout

/-- Through a trip reset a channel leaves the word only where it is marked and no true rule raises it again. -/
theorem LatchMoved.of_resetThenRaised {s t : State} {dt ch : Nat} (h : ResetThenRaised s t) : LatchMoved (.tripReset dt) s t ch := by
  obtain h | ⟨r, rest, hqueue, hkind, h⟩ := h
  · exact .of_own_eq h
  · have hword : t.trip.own.getLsbD ch = (s.trip.own.getLsbD ch && !r.channelMask.getLsbD ch ||
        (t.trip.active.raised t.trip.sources).getLsbD ch) := by
      rw [h, BitVec.getLsbD_or, BitVec.getLsbD_and, BitVec.getLsbD_not]
      by_cases hch : ch < 32
      · simp [hch]
      · simp [BitVec.getLsbD_of_ge s.trip.own ch (by omega)]
    unfold LatchMoved
    rw [hword]
    refine ⟨fun hout hin => ⟨?_, .inr (.inr ⟨dt, rfl⟩)⟩, fun hin hout => .inl ⟨dt, r, rest, rfl, hqueue, hkind, ?_⟩⟩
    · simpa [hout] using hin
    · simpa [hin] using hout

/-- Settles O29: the commands that neither evaluate nor reset the part by `exec_own`, and the five others one by one. -/
theorem ownRaisedWordIsALatch : Obligations.OwnRaisedWordIsALatch := by
  refine ⟨TripUnit.evaluated_own, fun s t dt straps hrun => execPowerOnReset_own hrun,
    fun s t straps hrel hwait hrun => (execNodeResetBegin_own hrel hrun).1 hwait, fun c s t ch hrel hrun => ?_⟩
  show LatchMoved c s t ch
  cases hc : mayChangeOwn c with
  | false => exact .of_own_eq (exec_own hrel hrun hc)
  | true =>
    cases c with
    | tripEvaluation dt pick =>
      rw [exec, execTripEvaluation, done_released _ _ hrel] at hrun
      cases hrun
      exact .of_raisedOnly ((takeChange_raisedOnly (s.elapse dt) pick).settle s) (.inl ⟨dt, pick, rfl⟩)
    | tripCommit dt => exact .of_raisedOnly (execTripCommit_raisedOnly hrel hrun) (.inr (.inl ⟨dt, rfl⟩))
    | tripReset dt => exact .of_resetThenRaised (execTripReset_resetThenRaised hrel hrun)
    | powerOnReset dt straps =>
      have hempty := execPowerOnReset_own hrun
      refine ⟨fun _ hin => ?_, fun _ _ => .inr (.inl ⟨dt, straps, rfl⟩)⟩
      simp [hempty] at hin
    | nodeResetBegin straps =>
      obtain ⟨hreset, hidle⟩ := execNodeResetBegin_own hrel hrun
      refine ⟨fun hout hin => ?_, fun _ _ => .inr (.inr ⟨straps, rfl⟩)⟩
      by_cases hwait : s.agent.resetWait = none
      · rw [hidle hwait, hout] at hin
        exact nomatch hin
      · simp [hreset hwait] at hin
    | _ => exact nomatch hc

/-! ### A trip frame handed to the ports (R72, R164, R166) -/

@[simp] theorem formView_port (s : State) (p : PortId) : (formView s).port p = s.port p := by
  unfold formView
  dsimp only
  split <;> exact State.setConsole_port _ _ _

@[simp] theorem formView_forward (s : State) : (formView s).forward = s.forward := by
  unfold formView
  dsimp only
  split <;> rfl

/-- A frame handed to port `p` where it is UP. -/
def pushIfUp (s : State) (f : Frame) (p : PortId) : State := if (s.port p).isUp then s.setPort p ((s.port p).push f) else s

/-- A frame handed to one port leaves the other. -/
theorem pushIfUp_port (s : State) (f : Frame) (p q : PortId) : (pushIfUp s f p).port q =
    if q = p ∧ (s.port p).isUp = true then (s.port q).push f else s.port q := by
  unfold pushIfUp
  by_cases hup : (s.port p).isUp = true
  · rw [if_pos hup]
    by_cases hq : q = p
    · rw [if_pos ⟨hq, hup⟩, hq, State.setPort_port_same]
    · rw [if_neg (fun h => hq h.1), State.setPort_port_other _ _ _ _ hq]
  · rw [if_neg hup, if_neg (fun h => hup h.2)]

theorem sendBoth_eq (s : State) (f : Frame) : sendBoth s f = pushIfUp (pushIfUp s f .a) f .b := rfl

/-- A frame handed to both ports is placed on each one that is UP (R1, R72). -/
theorem sendBoth_port (s : State) (f : Frame) (p : PortId) :
    (sendBoth s f).port p = if (s.port p).isUp then (s.port p).push f else s.port p := by
  rw [sendBoth_eq, pushIfUp_port, pushIfUp_port, pushIfUp_port]
  cases p <;> simp

/-- A trip frame placed in a trip queue leaves what the port is sending and the state of its link (R164). -/
theorem FibrePort.pushTrip_spec (q : FibrePort) (f : Frame) :
    (q.trips.length < 8 ∧ q.pushTrip f = { q with trips := q.trips ++ [f] }) ∨
    (8 ≤ q.trips.length ∧ q.pushTrip f = { q with counters := { q.counters with tripDropped := bump q.counters.tripDropped } }) := by
  unfold FibrePort.pushTrip
  by_cases h : q.trips.length < 8
  · exact .inl ⟨h, if_pos h⟩
  · exact .inr ⟨by omega, if_neg h⟩

theorem gained_append_singleton {α : Type} [DecidableEq α] (l : List α) (a : α) : gained l (l ++ [a]) = true := by
  have hlong : ¬(l ++ [a]).Sublist l := fun h => by
    have := h.length_le
    simp at this
  unfold gained
  rw [Bool.not_eq_true', Bool.eq_false_iff, ne_eq, List.isSublist_iff_sublist]
  exact hlong

/-- A port that gained a trip frame has a cause to choose its next frame (R166). -/
theorem choiceDue_of_trips {s t : State} {p : PortId} (h : gained (s.port p).trips (t.port p).trips = true) :
    choiceDue s t p = true := by
  simp [choiceDue, h]

/-- A port that is not UP, or is sending, chooses nothing (R166). -/
theorem choosePortIf_busy (due : Bool) {t : State} {p : PortId} (h : (t.port p).isUp = false ∨ (t.port p).sending.isSome = true) :
    choosePortIf due t p = t := by
  unfold choosePortIf choosePort
  dsimp only
  split
  · rw [if_pos (by rcases h with h | h <;> simp [h])]
  · rfl

/-- An idle port that is UP starts the head of its trip queue first (R166). -/
theorem choosePort_trips {t : State} {p : PortId} {f : Frame} {rest : List Frame} (hup : (t.port p).isUp = true)
    (hidle : (t.port p).sending.isSome = false) (htrips : (t.port p).trips = f :: rest) :
    choosePort t p = t.setPort p ({ t.port p with trips := rest }.start t.now f false false) := by
  simp [choosePort, hup, hidle, htrips]

/-- At the end of a command each port makes its own choice: the choice of the other port and all else leave it as it is. -/
theorem settle_port (s t : State) (p : PortId) : ∃ x y : State, x.port p = t.port p ∧ y.port p = t.port p ∧ y.now = t.now ∧
    (settle s t).port p = (choosePortIf (choiceDue s x p) y p).port p := by
  have hp : (settle s t).port p = (settleQueues s t).port p := by
    simp only [settle, showStreams, showRing, showAxes, handSources, State.setConsole_port, State.setTrip_port]
  have hx : (placeSegment (placeSegment t 0) 1).port p = t.port p := by rw [placeSegment_port, placeSegment_port]
  have hnow : (placeSegment (placeSegment t 0) 1).now = t.now := by rw [placeSegment_now, placeSegment_now]
  rw [hp]
  simp only [settleQueues, State.setImage_port]
  generalize placeSegment (placeSegment t 0) 1 = x at hx hnow ⊢
  cases p with
  | a => exact ⟨x, x, hx, hx, hnow, choosePortIf_port_other _ _ _ _ (by decide)⟩
  | b =>
    refine ⟨x, _, hx, ?_, ?_, rfl⟩
    · rw [choosePortIf_port_other _ _ _ _ (by decide), hx]
    · rw [choosePortIf_now, hnow]

/-- What becomes of a trip frame that a command placed on a port that is UP, at the command's end (R164, R166). -/
theorem handedToTripQueue_settle {s t : State} {p : PortId} {f : Frame}
    (ht : t.port p = if (s.port p).isUp then (s.port p).pushTrip f else s.port p) : HandedToTripQueue s (settle s t) p f := by
  obtain ⟨x, y, hx, hy, hnow, hport⟩ := settle_port s t p
  unfold HandedToTripQueue
  dsimp only
  by_cases hup : (s.port p).isUp = true
  · rw [if_neg (by simpa [FibrePort.isUp] using hup)]
    rw [if_pos hup] at ht
    obtain ⟨hroom, hpush⟩ | ⟨hfull, hpush⟩ := (s.port p).pushTrip_spec f
    · rw [hpush] at ht
      rw [if_neg (by omega), hport]
      by_cases hsend : (s.port p).sending.isSome = true
      · rw [if_pos hsend, choosePortIf_busy _ (.inr (by rw [hy, ht]; exact hsend)), hy, ht]
        exact ⟨rfl, rfl⟩
      · obtain ⟨h, rest, hqueue⟩ : ∃ h rest, (s.port p).trips ++ [f] = h :: rest :=
          List.exists_cons_of_ne_nil (by simp)
        have hdue : choiceDue s x p = true := choiceDue_of_trips (by rw [hx, ht]; exact gained_append_singleton _ _)
        have hchoice : choosePort y p = y.setPort p ({ y.port p with trips := rest }.start y.now h false false) :=
          choosePort_trips (by rw [hy, ht]; exact hup) (by rw [hy, ht]; simpa using hsend) (by rw [hy, ht]; exact hqueue)
        rw [if_neg hsend, hdue, choosePortIf, if_pos rfl, hchoice, State.setPort_port_same, hy, ht, hqueue, settle_now, hnow]
        exact ⟨rfl, h, rfl, rfl⟩
    · rw [if_pos hfull, settle_port_counters, ht, hpush]
  · rw [if_neg hup] at ht
    rw [if_pos (by simpa [FibrePort.isUp] using hup), hport, choosePortIf_busy _ (.inl (by rw [hy, ht]; simpa using hup)), hy, ht]

/-! ### An evaluation at the end of its command (R66, R72 to R74) -/

/-- An evaluation sends the gained word on every port that is UP, where the node has an address, and else sends nothing (R72). -/
theorem evaluate_port (s : State) (p : PortId) : (evaluate s).port p =
    if (evaluate s).trip.own ≠ s.trip.own ∧ s.hasAddress = true then
      if (s.port p).isUp then (s.port p).pushTrip (Frame.own s.addressByte .trip 0
        (.bytes (tripPayload (evaluate s).trip.seq (evaluate s).trip.own))) else s.port p
    else s.port p := by
  obtain ⟨o, n, htrip⟩ := evaluate_trip s
  have hown : (evaluate s).trip.own = (s.trip.evaluated s.hasAddress).own := by rw [htrip]
  have hseq : (evaluate s).trip.seq = (s.trip.evaluated s.hasAddress).seq := by rw [htrip]
  rw [hown, hseq, evaluate_eq, formView_port]
  split
  · rw [sendBoth_port, State.setTrip_port]
    rfl
  · exact State.setTrip_port s _ p

@[simp] theorem sendBoth_forward (s : State) (f : Frame) : (sendBoth s f).forward = s.forward := by
  unfold sendBoth
  dsimp only
  split <;> split <;> simp

@[simp] theorem evaluate_forward (s : State) : (evaluate s).forward = s.forward := by
  rw [evaluate_eq, formView_forward]
  split <;> simp

/-- A frame handed to a port touches the port units alone. -/
theorem pushIfUp_keeps (s : State) (f : Frame) (p : PortId) : KeepsAllBut [.portA, .portB] s (pushIfUp s f p) := by
  unfold pushIfUp
  split
  · refine ⟨fun b hb => ?_, by simp, by simp, by simp, by simp⟩
    cases p <;> cases b
    case a.portA => exact absurd (by simp) hb
    case b.portB => exact absurd (by simp) hb
    all_goals rfl
  · exact KeepsAllBut.refl _ _

theorem sendBoth_keeps (s : State) (f : Frame) : KeepsAllBut [.portA, .portB] s (sendBoth s f) :=
  (pushIfUp_keeps s f .a).trans (pushIfUp_keeps _ f .b)

theorem setTrip_keeps (s : State) (u : TripUnit) : KeepsAllBut [.trip] s (s.setTrip u) := by
  refine ⟨fun b hb => ?_, rfl, rfl, rfl, rfl⟩
  cases b
  case trip => exact absurd (List.mem_singleton_self _) hb
  all_goals rfl

/-- Beside the trip unit an evaluation touches the axis unit, the port units and what tile 252 shows. -/
theorem evaluate_keeps (s : State) : KeepsAllBut [.axis, .trip, .portA, .portB] s (evaluate s) := by
  have htrip := (setTrip_keeps s (s.trip.evaluated s.hasAddress)).mono (k := [.axis, .trip, .portA, .portB]) (by simp)
  rw [evaluate_eq]
  split
  · exact (htrip.trans ((sendBoth_keeps _ _).mono (by simp))).trans ((formView_keeps _).mono (by simp))
  · exact htrip.trans ((formView_keeps _).mono (by simp))

/-- An evaluation asks five fields of the unit that it evaluates. -/
theorem Evaluated.congr {u v : TripUnit} {s t : State} (h : Evaluated u s t) (hown : u.own = v.own) (hactive : u.active = v.active)
    (hsources : u.sources = v.sources) (hseq : u.seq = v.seq) (hframe : u.counters.tripFrame = v.counters.tripFrame) :
    Evaluated v s t := by
  unfold Evaluated at h ⊢
  rw [← hown, ← hactive, ← hsources, ← hseq, ← hframe]
  exact h

/-- The trip unit of `x` was evaluated when a command ends behind an evaluation of `x`, whose ports and address are those of `s`, and
what followed it left the trip unit and the ports. -/
theorem evaluated_settle {s x y : State} (hports : ∀ p, x.port p = s.port p) (hstraps : x.straps = s.straps)
    (htrip : y.trip = (evaluate x).trip) (hsent : ∀ p, y.port p = (evaluate x).port p) : Evaluated x.trip s (settle s y) := by
  have haddress : x.hasAddress = s.hasAddress := by unfold State.hasAddress; rw [hstraps]
  have hbyte : x.addressByte = s.addressByte := by unfold State.addressByte; rw [hstraps]
  obtain ⟨o, n, h⟩ := evaluate_trip x
  rw [TripUnit.evaluated_eq] at h
  unfold Evaluated
  refine ⟨?_, ?_, ?_⟩
  · rw [settle_trip_own, htrip, h]
  · rw [settle_trip_own, settle_trip_seq, settle_trip_counters, htrip]
    by_cases hgain : (evaluate x).trip.own ≠ x.trip.own ∧ s.hasAddress = true
    · rw [if_pos hgain]
      have hgain' : x.trip.own ||| x.trip.active.raised x.trip.sources ≠ x.trip.own ∧ x.hasAddress = true := by
        rw [h, ← haddress] at hgain
        exact hgain
      refine ⟨by rw [h]; exact if_pos hgain', by rw [h]; exact if_pos hgain', fun p => handedToTripQueue_settle ?_⟩
      rw [hsent, evaluate_port, haddress, if_pos hgain, hbyte, hports]
    · rw [if_neg hgain]
      have hgain' : ¬(x.trip.own ||| x.trip.active.raised x.trip.sources ≠ x.trip.own ∧ x.hasAddress = true) := by
        rw [h, ← haddress] at hgain
        exact hgain
      have hquiet : ∀ p, y.port p = s.port p := fun p => by rw [hsent, evaluate_port, haddress, if_neg hgain, hports]
      refine ⟨by rw [h]; exact if_neg hgain', by rw [h]; exact if_neg hgain', ?_, ?_⟩
      · exact (settle_portA s y).trans (congrArg FibrePort.still (hquiet .a))
      · exact (settle_portB s y).trans (congrArg FibrePort.still (hquiet .b))
  · simp only [TripUnit.formed, TripUnit.heldMarks, TripUnit.blanked, settle_trip_view, settle_trip_own, settle_trip_held,
      settle_trip_total, settle_trip_upstream, settle_trip_blank, htrip, h]

/-! ### The trip reset (R75, R77) -/

/-- What the view is made of, channel by channel (R86). -/
theorem TripUnit.formed_iff (u : TripUnit) {c : Nat} (hc : c < 32) : u.formed.getLsbD c = true ↔
    u.own.getLsbD c = true ∨ (u.held.getD c none).isSome = true ∨
      ((u.total.getLsbD c = true ∨ u.upstream.getLsbD c = true) ∧ u.blank.getD c 0 = 0) := by
  simp only [TripUnit.formed, TripUnit.heldMarks, TripUnit.blanked, BitVec.getLsbD_or, BitVec.getLsbD_and, BitVec.getLsbD_not,
    getLsbD_marksWhere, hc, decide_true, Bool.true_and, Bool.or_eq_true, Bool.and_eq_true, or_assoc]
  simp

/-- The trip unit as a trip reset evaluates it, up to its view, outputs and group action counter: the channels of the mask reset, and
sources 32 to 63 at the values of the view that is formed without them (R75). -/
def TripUnit.resetForEvaluation (u : TripUnit) (mask : Marks) : TripUnit :=
  { u.resetChannels mask with sources := (u.resetChannels mask).formed ++ u.sources.setWidth 32 }

/-- `resetForEvaluation` is the trip unit of `resetView`, up to what a forming of the view changes. -/
theorem resetView_trip (s : State) (mask : Marks) : ∃ outputs n, (resetView s mask).trip =
    { s.trip.resetForEvaluation mask with
      view := (s.trip.resetChannels mask).formed
      outputs := outputs
      counters := { (s.trip.resetForEvaluation mask).counters with groupAction := n } } := by
  obtain ⟨o, n, h⟩ := formView_trip (s.setTrip (s.trip.resetChannels mask))
  refine ⟨o, n, ?_⟩
  unfold resetView
  rw [State.setTrip_trip, h]
  rfl

@[simp] theorem resetView_port (s : State) (mask : Marks) (p : PortId) : (resetView s mask).port p = s.port p := by
  rw [resetView, State.setTrip_port, formView_port, State.setTrip_port]

@[simp] theorem resetView_forward (s : State) (mask : Marks) : (resetView s mask).forward = s.forward :=
  formView_forward _

theorem resetView_keeps (s : State) (mask : Marks) : KeepsAllBut [.axis, .trip] s (resetView s mask) :=
  (((setTrip_keeps s _).mono (by simp)).trans (formView_keeps _)).trans ((setTrip_keeps _ _).mono (by simp))

theorem tripReset_keeps (s : State) (mask : Marks) : KeepsAllBut [.axis, .trip, .portA, .portB] s (tripReset s mask) :=
  ((resetView_keeps s mask).mono (by simp)).trans (evaluate_keeps _)

/-- What a trip reset leaves in the trip unit beside the own-raised word, the trip sequence and the view (R75). -/
theorem tripReset_trip (s : State) (mask : Marks) :
    (tripReset s mask).trip.held = (s.trip.resetChannels mask).held ∧
    (tripReset s mask).trip.blank = (s.trip.resetChannels mask).blank ∧
    (tripReset s mask).trip.sources = (s.trip.resetForEvaluation mask).sources ∧
    (tripReset s mask).trip.counters.tripReset = bump s.trip.counters.tripReset ∧
    (tripReset s mask).trip.dedupe = s.trip.dedupe ∧
    (tripReset s mask).trip.active = s.trip.active ∧ (tripReset s mask).trip.staging = s.trip.staging := by
  obtain ⟨o, n, hview⟩ := resetView_trip s mask
  obtain ⟨o', n', heval⟩ := evaluate_trip (resetView s mask)
  rw [TripUnit.evaluated_eq, hview] at heval
  rw [tripReset, heval]
  exact ⟨rfl, rfl, rfl, rfl, rfl, rfl, rfl⟩

/-- The blanking timers and held bits of the marked channels (R75, steps 2 and 3). -/
theorem TripUnit.resetChannels_marked (u : TripUnit) {mask : Marks} {c : Nat} (hc : c < 32) (hm : mask.getLsbD c = true) :
    (u.resetChannels mask).blank.get? c = some 2 ∧ (u.resetChannels mask).held.get? c = some none := by
  simp [TripUnit.resetChannels, Table.get?_of_lt u.blank c 0 hc, Table.get?_of_lt u.held c none hc, hm]

/-- A trip reset leaves the blanking timers and held bits of the other channels (R75). -/
theorem TripUnit.resetChannels_unmarked (u : TripUnit) {mask : Marks} {c : Nat} (hc : c < 32) (hm : mask.getLsbD c = false) :
    (u.resetChannels mask).blank.get? c = u.blank.get? c ∧ (u.resetChannels mask).held.get? c = u.held.get? c := by
  simp [TripUnit.resetChannels, Table.get?_of_lt u.blank c 0 hc, Table.get?_of_lt u.held c none hc, hm]

/-- The sources that a trip reset evaluates: below 32 as they were, from 32 on the view without the marked channels (R75). -/
theorem TripUnit.resetForEvaluation_sources (u : TripUnit) (mask : Marks) (k : Nat) :
    (u.resetForEvaluation mask).sources.getLsbD k =
      if k < 32 then (u.sources.setWidth 32).getLsbD k else (u.resetChannels mask).formed.getLsbD (k - 32) :=
  BitVec.getLsbD_append

/-- Sources 0 to 31 stay as they are. -/
theorem TripUnit.resetForEvaluation_low (u : TripUnit) (mask : Marks) {k : Nat} (hk : k < 32) :
    (u.resetForEvaluation mask).sources.getLsbD k = u.sources.getLsbD k := by
  simp [u.resetForEvaluation_sources, hk]

/-- Sources 32 to 63 take the values of the view without the marked channels (R75). -/
theorem TripUnit.resetForEvaluation_high (u : TripUnit) (mask : Marks) {c : Nat} (hc : c < 32) :
    (u.resetForEvaluation mask).sources.getLsbD (32 + c) = true ↔
      (u.own.getLsbD c = true ∧ mask.getLsbD c = false) ∨ ((u.resetChannels mask).held.getD c none).isSome = true ∨
      ((u.total.getLsbD c = true ∨ u.upstream.getLsbD c = true) ∧ (u.resetChannels mask).blank.getD c 0 = 0) := by
  have hbit : (u.resetForEvaluation mask).sources.getLsbD (32 + c) = (u.resetChannels mask).formed.getLsbD c := by
    simp [u.resetForEvaluation_sources]
  have hown : (u.resetChannels mask).own.getLsbD c = true ↔ u.own.getLsbD c = true ∧ mask.getLsbD c = false := by
    simp [TripUnit.resetChannels, hc]
  rw [hbit, TripUnit.formed_iff _ hc, hown]
  rfl

/-- Taking the head of the queue touches the agent alone. -/
theorem headTaken_keeps (s : State) (dt : Nat) (rest : List Request) : KeepsAllBut [.agent] s (headTaken s dt rest) := by
  refine ⟨fun b hb => ?_, rfl, rfl, rfl, rfl⟩
  cases b
  case agent => exact absurd (List.mem_singleton_self _) hb
  all_goals rfl

/-- The answer to a TRIP RESET with four data bytes or more: OK, or CAUSE with the marked channels that are raised again (R77). -/
theorem actTripReset_answer (s : State) (r : Request) (hlen : 4 ≤ r.data.length) : ∃ st data,
    answerRequest r (some .tripReset) (actTripReset s r) =
      answerAs (tripReset s r.channelMask) (.answer false) r st data false ∧
    (if (tripReset s r.channelMask).trip.own &&& r.channelMask = 0 then st = .ok ∧ data = noData
     else st = .cause ∧ data = .bytes (beBytes 4 ((tripReset s r.channelMask).trip.own &&& r.channelMask).toNat)) := by
  unfold actTripReset
  rw [if_neg (by omega)]
  dsimp only
  by_cases h : (tripReset s r.channelMask).trip.own &&& r.channelMask = 0
  · rw [if_pos h]
    exact ⟨.ok, noData, by simp [answerRequest, accept, countAgent_ofStatus, noData], by rw [if_pos h]; exact ⟨rfl, rfl⟩⟩
  · rw [if_neg h]
    exact ⟨.cause, .bytes (beBytes 4 ((tripReset s r.channelMask).trip.own &&& r.channelMask).toNat), by simp [answerRequest, countAgent_ofStatus],
      by rw [if_neg h]; exact ⟨rfl, rfl⟩⟩

@[simp] theorem answerAs_port (s : State) (o : Owner) (r : Request) (st : Status) (data : AnswerData) (c : Bool) (p : PortId) :
    (answerAs s o r st data c).port p = s.port p := by
  unfold answerAs
  split
  · exact State.setConsole_port _ _ _
  · exact State.setForward_port _ _ _

/-- The evaluation of a trip reset, at the end of its command (R75). -/
theorem tripReset_evaluated (s : State) (dt : Nat) (rest : List Request) (mask : Marks) (o : Owner) (r : Request) (st : Status)
    (data : AnswerData) (c : Bool) :
    Evaluated { s.trip with sources := (s.trip.resetForEvaluation mask).sources, own := s.trip.own &&& ~~~mask } s
      (settle s (answerAs (tripReset (headTaken s dt rest) mask) o r st data c)) := by
  have hports : ∀ p, (resetView (headTaken s dt rest) mask).port p = s.port p := fun p => by
    rw [resetView_port]
    cases p <;> rfl
  have hstraps : (resetView (headTaken s dt rest) mask).straps = s.straps := (resetView_keeps _ mask).2.1.trans rfl
  obtain ⟨_, _, hview⟩ := resetView_trip (headTaken s dt rest) mask
  refine (evaluated_settle (x := resetView (headTaken s dt rest) mask) hports hstraps (answerAs_trip _ _ _ _ _ _)
    (fun p => answerAs_port _ _ _ _ _ _ p)).congr ?_ ?_ ?_ ?_ ?_ <;> rw [hview] <;> rfl

/-- Settles O28: the request is executed, `tripReset` does the steps of R75, and the end of the command sends the trip frame and the
answer. -/
theorem tripResetRule : Obligations.TripResetRule := by
  intro s dt r rest hdue hlen hrel
  have hmine : r.isKind .tripReset = true := by
    obtain ⟨-, -, hkind, -⟩ := hdue
    simp [Request.isKind, hkind]
  have hexec : execute (s.elapse dt) (fun r => r.isKind .tripReset) .tripReset actTripReset
      = answerRequest r (some .tripReset) (actTripReset (headTaken s dt rest) r) :=
    execute_due (s.elapse dt) _ .tripReset actTripReset r rest hdue hmine trivial
  obtain ⟨st, data, hanswer, hstatus⟩ := actTripReset_answer (headTaken s dt rest) r hlen
  refine ⟨_, done_released s _ hrel, ?_⟩
  rw [hexec, hanswer]
  have hkeeps := tripReset_keeps (headTaken s dt rest) r.channelMask
  have hforward : (tripReset (headTaken s dt rest) r.channelMask).forward = s.forward := by
    rw [tripReset, evaluate_forward, resetView_forward]
    rfl
  have hanswered := answered_settle s (tripReset (headTaken s dt rest) r.channelMask) s s.forward.management r st data false
    (hkeeps.1 .console (by simp)) (congrArg ForwardUnit.still hforward) (congrArg ForwardUnit.management hforward) hkeeps.2.1 Iff.rfl
  have hevaluated := tripReset_evaluated s dt rest r.channelMask (.answer false) r st data false
  have hall := (hkeeps.mono (k := [.axis, .trip, .console, .forward, .portA, .portB]) (by simp)).trans
    (((answerAs_keeps _ (.answer false) r st data false).mono (by simp)).trans ((settle_keeps s _).mono (by simp)))
  obtain ⟨hheld, hblank, hsources, hcount, hdedupe, hactive, hstaging⟩ := tripReset_trip (headTaken s dt rest) r.channelMask
  dsimp only
  rw [settle_trip_own, settle_trip_blank, settle_trip_held, settle_trip_sources, settle_trip_counters, settle_trip_dedupe,
    settle_trip_active, settle_trip_staging, answerAs_trip, hheld, hblank, hsources]
  refine ⟨hall.1 .agent (by simp), fun c hc hm => s.trip.resetChannels_marked hc hm,
    fun c hc hm => s.trip.resetChannels_unmarked hc hm, fun k hk => s.trip.resetForEvaluation_low _ hk,
    fun c hc => s.trip.resetForEvaluation_high _ hc, hevaluated, hcount, hdedupe, hactive, hstaging, ?_,
    ((headTaken_keeps s dt rest).mono (by simp)).trans (hall.mono (by simp))⟩
  split at hstatus
  · next h =>
    obtain ⟨rfl, rfl⟩ := hstatus
    rw [if_pos h]
    exact hanswered
  · next h =>
    obtain ⟨rfl, rfl⟩ := hstatus
    rw [if_neg h]
    exact hanswered

end Sys2Proof.Machine

/-!
PROOFS. The mark search (R118 to R121, R123 and R124): the window distance, the dark count, the rounding of a correction, and a line
before, in and behind the window.
-/
namespace Sys2Proof.Machine

/-! ### The window distance (R118) -/

theorem windowDistance_range (tag : ExtPos) (e : Nat) : windowDistance tag e ≤ 8388607 ∧ -8388608 ≤ windowDistance tag e := by
  have hhigh := BitVec.two_mul_toInt_lt (x := BitVec.ofNat 24 (extPhase tag) - BitVec.ofNat 24 e)
  have hlow := BitVec.le_two_mul_toInt (x := BitVec.ofNat 24 (extPhase tag) - BitVec.ofNat 24 e)
  unfold windowDistance
  omega

theorem windowDistance_emod (tag : ExtPos) (e : Nat) :
    ((extPhase tag : Int) - (e : Int) - windowDistance tag e) % 16777216 = 0 := by
  simp only [windowDistance, BitVec.toInt_sub, BitVec.toInt_ofNat', Int.bmod_sub_bmod, Int.sub_bmod_bmod]
  exact Int.emod_eq_zero_of_dvd Int.dvd_self_sub_bmod

/-! ### The dark count (R120) -/

/-- The entries of a list from position `a` to before position `b` that meet `p`, counted by position. -/
theorem length_filter_drop_take {α : Type} (p : α → Bool) (d : α) (l : List α) (a b : Nat) :
    (((l.take b).drop a).filter p).length =
      ((List.range l.length).filter fun i => decide (a ≤ i) && decide (i < b) && p (l.getD i d)).length := by
  induction l generalizing a b with
  | nil => simp
  | cons x l ih =>
    cases b with
    | zero => simp
    | succ b =>
      rw [List.length_cons, List.range_succ_eq_map]
      cases a with
      | zero =>
        have htail := ih 0 b
        simp only [List.drop_zero] at htail
        cases hx : p x <;> simp [hx, htail, List.filter_map, Function.comp_def]
      | succ a => simp [ih, List.filter_map, Function.comp_def]

theorem darkCount_eq (r : MarkRecord) (pixels : List Nat) :
    r.darkCount pixels = ((List.range pixels.length).filter fun i =>
      decide (r.first ≤ i) && decide (i ≤ r.last) && decide (pixels.getD i 0 < r.dark)).length := by
  simp only [MarkRecord.darkCount, length_filter_drop_take _ 0, Nat.lt_succ_iff]

/-! ### The correction (R121) -/

/-- `(n + 128) / 256` is `n / 256` to the nearest whole number, a half going up. -/
theorem nearest_of_add_half (n : Nat) : 256 * ((n + 128) / 256) ≤ n + 128 ∧ n < 256 * ((n + 128) / 256) + 128 := by
  omega

theorem correctionFor_rounded (e : Int) (k : Nat) :
    (2 * (256 * correctionFor e k + e * k)).natAbs ≤ 256 ∧
    ((2 * (256 * correctionFor e k + e * k)).natAbs = 256 → (e * k).natAbs < (256 * correctionFor e k).natAbs) := by
  obtain ⟨hle, hlt⟩ := nearest_of_add_half (e.natAbs * k)
  unfold correctionFor
  generalize hm : (e.natAbs * k + 128) / 256 = m at hle hlt ⊢
  by_cases he : e < 0
  · have hprod : e * (k : Int) = -((e.natAbs * k : Nat) : Int) := by
      rw [Nat.cast_mul, Int.ofNat_natAbs_of_nonpos he.le, neg_mul, neg_neg]
    simp only [he, if_true, hprod]
    omega
  · have hprod : e * (k : Int) = ((e.natAbs * k : Nat) : Int) := by
      rw [Nat.cast_mul, Int.natAbs_of_nonneg (not_lt.mp he)]
    simp only [he, if_false, hprod]
    omega

/-! ### A line behind the window (R123, R124) -/

namespace MarkEntry

theorem missed_search (m : MarkEntry) :
    m.missed.search = { m.search with
      pending := false
      found := false
      miss := if m.search.miss < 4 then m.search.miss + 1 else m.search.miss
      status := if m.search.miss < 3 then m.search.status else .lost } := by
  have hfourth : (4 ≤ if m.search.miss < 4 then m.search.miss + 1 else m.search.miss) ↔ ¬m.search.miss < 3 := by
    split <;> omega
  simp only [missed, hfourth, ite_not]

theorem missed_markLost {m : MarkEntry} (hmiss : m.search.miss = 3) (hstatus : m.search.status ≠ .lost) :
    m.missed.counters.markLost = true := by
  simp [missed, hmiss, hstatus]

theorem after_of_missed {m : MarkEntry} (hpending : m.search.pending = true) (hfound : m.search.found = false) :
    m.after = m.missed := by
  simp [after, hpending, hfound]

theorem after_of_closed {m : MarkEntry} (h : m.search.pending = false ∨ m.search.found = true) :
    m.after = { m with search := { m.search with pending := false, found := false } } := by
  rcases h with h | h <;> simp [after, h]

@[simp] theorem after_record (m : MarkEntry) : m.after.record = m.record := by
  unfold after
  split <;> rfl

@[simp] theorem after_linesSearched (m : MarkEntry) : m.after.counters.linesSearched = m.counters.linesSearched := by
  unfold after
  split <;> rfl

/-! ### A line taken, in each of its cases (R118 to R120, R123) -/

/-- A mark entry with one more line searched (R118). -/
def searched (m : MarkEntry) : MarkEntry :=
  { m with counters := { m.counters with linesSearched := bump m.counters.linesSearched } }

section Take
variable {m : MarkEntry} {tag : ExtPos} {pixels : List Nat}

theorem take_before (h : windowDistance tag m.record.phase < -(m.record.window : Int)) :
    m.take tag pixels = ({ m.searched with search := { m.search with pending := true } }, none) :=
  if_pos h

theorem take_behind (h : (m.record.window : Int) < windowDistance tag m.record.phase) :
    m.take tag pixels = (m.searched.after, none) :=
  (if_neg (by omega)).trans (if_pos h)

theorem take_inWindow (hlow : -(m.record.window : Int) ≤ windowDistance tag m.record.phase)
    (hhigh : windowDistance tag m.record.phase ≤ (m.record.window : Int)) :
    m.take tag pixels =
      if m.search.found then (m.searched, none)
      else if m.record.minimum ≤ m.record.darkCount pixels then
        (m.searched.find (windowDistance tag m.record.phase) (m.record.darkCount pixels),
          some (correctionFor (windowDistance tag m.record.phase) m.record.gain))
      else ({ m.searched with search := { m.search with lastDark := some (m.record.darkCount pixels) } }, none) :=
  (if_neg (by omega)).trans (if_neg (by omega))

/-- Whatever a taken line does, the record stays and the line is counted (R118). -/
theorem take_counts (m : MarkEntry) (tag : ExtPos) (pixels : List Nat) :
    (m.take tag pixels).1.record = m.record ∧
    (m.take tag pixels).1.counters.linesSearched = bump m.counters.linesSearched := by
  rcases lt_or_ge (windowDistance tag m.record.phase) (-(m.record.window : Int)) with hbefore | hlow
  · rw [take_before hbefore]
    exact ⟨rfl, rfl⟩
  rcases lt_or_ge (m.record.window : Int) (windowDistance tag m.record.phase) with hbehind | hhigh
  · rw [take_behind hbehind]
    exact ⟨after_record _, after_linesSearched _⟩
  rw [take_inWindow hlow hhigh]
  repeat' split
  all_goals exact ⟨rfl, rfl⟩

end Take

end MarkEntry

/-- Settles O43: the distance, the dark count and the rounding each by their own lemma, then the line before, in and behind the window
by the equations of `MarkEntry.take`. -/
theorem markSearchRule : Obligations.MarkSearchRule := by
  intro m tag pixels
  dsimp only
  obtain ⟨hmax, hmin⟩ := windowDistance_range tag m.record.phase
  obtain ⟨hrecord, hlines⟩ := m.take_counts tag pixels
  rw [← darkCount_eq]
  refine ⟨hmax, hmin, windowDistance_emod tag m.record.phase, hrecord, hlines, fun hbefore => ?_, fun hlow hhigh => ?_,
    fun hbehind => ?_⟩
  · rw [MarkEntry.take_before hbefore]
    exact ⟨rfl, rfl, rfl⟩
  · rw [MarkEntry.take_inWindow hlow hhigh]
    refine ⟨fun hfound => ?_, fun hfound hfew => ?_, fun hfound henough => ?_⟩
    · rw [if_pos hfound]
      exact ⟨rfl, rfl⟩
    · rw [if_neg (by simp [hfound]), if_neg (not_le.mpr hfew)]
      exact ⟨rfl, rfl⟩
    · rw [if_neg (by simp [hfound]), if_pos henough]
      exact ⟨_, rfl, rfl, rfl, correctionFor_rounded _ _⟩
  · rw [MarkEntry.take_behind hbehind]
    refine ⟨rfl, fun hclosed => ?_, fun hpending hfound => ?_⟩
    · rw [MarkEntry.after_of_closed (m := m.searched) hclosed]
      exact ⟨rfl, rfl⟩
    · rw [MarkEntry.after_of_missed (m := m.searched) hpending hfound]
      exact ⟨rfl, m.searched.missed_search, MarkEntry.missed_markLost (m := m.searched)⟩

end Sys2Proof.Machine
